-- ==== Sys2Proof/Word.lean ====
section
/-!
DEFINITION. The words of the machine: a byte, a 64-bit word, the length of a vector operation and the contents of one
vector register (00_scope.md rules R6, R7, R9; 10_state.md rule R20).
-/
namespace Sys2Proof

/-- One byte of memory or of an instruction. -/
abbrev Byte := BitVec 8

/-- A 64-bit element, general register or linear address. -/
abbrev Word64 := BitVec 64

/-- The contents of one vector register: eight 64-bit elements, element `j` being bits [64j+63:64j] of the register
(10_state.md rule R20, 00_scope.md glossary "element"). The XMM view is elements 0 and 1, the YMM view elements 0 to 3. -/
abbrev VecReg := Vector Word64 8

/-- `VL`, the vector length of one execution (00_scope.md rule R6). -/
inductive VecLen where
  | v128
  | v256
  | v512
deriving DecidableEq, Repr

/-- The operating mode that decodes the bytes (10_state.md rule R32). `long64` and `prot32` are the spec's two values of
`Mode`; the other three are the modes 00_scope.md rule R5 puts out of scope. -/
inductive Mode where
  | long64
  | prot32
  | real
  | v86
  | prot16
deriving DecidableEq, Repr

end Sys2Proof
end

