-- ==== Sys2Proof/Config.lean ====
section
/-!
DEFINITION. What an implementation fixes, and the free values of the model: constants with no body, so that nothing can be
proved about the value they take (92_eei_decisions.md D4, D13, D20).
-/
namespace Sys2Proof.Config

/-- The longest instruction, in bytes (60_exceptions.md rule R180). -/
def maxInstrBytes : Nat := 15

/-- The size of a page in bytes (20_memory.md rule R56). -/
def pageBytes : Nat := 4096

/-- FREE VALUE, log 8. `LegacyPartialFetch` (20_memory.md rule R55, 92_eei_decisions.md D4): does this execution of form 1
fetch only the upper 8 bytes of its operand? Applied to State's counter `draws`. -/
opaque legacyPartialFetch : Nat → Bool

/-- FREE VALUE, log 9. Which of the faulting bytes of an operand a #PF reports (92_eei_decisions.md D20), as an index that is
reduced modulo the number of faulting bytes. Applied to State's counter `draws`. -/
opaque reportedByte : Nat → Nat

/-- FREE VALUE, log 10. Whether form 1 reports #GP(0) rather than #SS(0) for an operand through SS that is both misaligned and
outside the segment (60_exceptions.md rule R181, 92_eei_decisions.md D13). Applied to State's counter `draws`. -/
opaque alignmentFirst : Nat → Bool

end Sys2Proof.Config
end

