-- ==== Sys2Proof/Syntax.lean ====
section
/-!
DEFINITION. The instructions: one constructor per row of spec/opcode_table.json (30_encoding.md rule R116), six forms in nine
prefix variants. A term keeps what the bytes mean and what decides their number; bits the hardware ignores (30_encoding.md
rule R110) and the order of the legacy prefixes are not kept (log 35).
-/
namespace Sys2Proof

/-- The six segment registers (10_state.md rule R26). -/
inductive SegName where
  | es
  | cs
  | ss
  | ds
  | fs
  | gs
deriving DecidableEq, Repr

/-- The displacement that follows ModRM or SIB (30_encoding.md rule R103), as stored: `d8` is not yet multiplied by N. -/
inductive Disp where
  | none
  | d8 (d : BitVec 8)
  | d32 (d : BitVec 32)
deriving DecidableEq, Repr

/-- An index register and its scale exponent (30_encoding.md rule R102), or no index. -/
abbrev Index := Option (BitVec 4 × BitVec 2)

/-- A memory operand as ModRM, SIB and displacement give it (30_encoding.md rules R101, R102, R104, R105). -/
inductive MemOperand where
  /-- A base register, no SIB byte. -/
  | base (b : BitVec 4) (d : Disp)
  /-- A SIB byte with a base register. -/
  | sib (b : BitVec 4) (ix : Index) (d : Disp)
  /-- A SIB byte with SIB.base = 101b and mod = 00b: no base, a disp32. -/
  | sibNoBase (ix : Index) (d : BitVec 32)
  /-- mod = 00b and r/m = 101b: RIP-relative in `Long64`, an absolute disp32 in `Prot32`. -/
  | disp32 (d : BitVec 32)
deriving DecidableEq, Repr

/-- The second source of forms 1 to 3: a vector register or memory (30_encoding.md rule R101). -/
inductive RegMem where
  | reg (r : BitVec 5)
  | mem (m : MemOperand)
deriving DecidableEq, Repr

/-- The second source of forms 4 to 6: a vector register, full-width memory (b = 0) or a broadcast element (b = 1)
(30_encoding.md rule R99). -/
inductive RegMemBcst where
  | reg (r : BitVec 5)
  | mem (m : MemOperand)
  | bcst (m : MemOperand)
deriving DecidableEq, Repr

/-- The writemask of forms 4 to 6 (30_encoding.md rule R98): none (aaa = 000b), merging-masking or zeroing-masking. -/
inductive Mask where
  | none
  | merge (k : BitVec 3)
  | zero (k : BitVec 3)
deriving DecidableEq, Repr

/-- The legacy prefix bytes that may stand before a form (30_encoding.md rule R84): a segment override, the address-size
prefix 67H, and how many redundant bytes form 1 carries (a repeated 66H, or a REX byte not directly before 0FH; log 19). -/
structure Prefixes where
  seg : Option SegName
  addr32 : Bool
  redundant : Nat
deriving DecidableEq, Repr

/-- What gates a form (60_exceptions.md rules R173 to R175): form 1, forms 2 and 3 by VL, forms 4 to 6 by VL. -/
inductive GateClass where
  | legacy
  | vex (vl : VecLen)
  | evex (vl : VecLen)
deriving DecidableEq, Repr

/-- The nine rows of the opcode table. Register numbers are 5 bits wide everywhere; `Instr.wellFormed` holds each row's
bound (10_state.md rule R21). -/
inductive Instr where
  /-- Form 1 without REX, `66 0F 15 /r` (R131). -/
  | unpckhpd (p : Prefixes) (dest : BitVec 5) (src2 : RegMem)
  /-- Form 1 with REX, `66 REX 0F 15 /r`, `Long64` only (R131). -/
  | unpckhpdRex (p : Prefixes) (dest : BitVec 5) (src2 : RegMem)
  /-- Form 2, two-byte VEX prefix (R132). -/
  | vunpckhpd128C5 (p : Prefixes) (dest src1 : BitVec 5) (src2 : RegMem)
  /-- Form 2, three-byte VEX prefix (R132). -/
  | vunpckhpd128C4 (p : Prefixes) (dest src1 : BitVec 5) (src2 : RegMem)
  /-- Form 3, two-byte VEX prefix (R133). -/
  | vunpckhpd256C5 (p : Prefixes) (dest src1 : BitVec 5) (src2 : RegMem)
  /-- Form 3, three-byte VEX prefix (R133). -/
  | vunpckhpd256C4 (p : Prefixes) (dest src1 : BitVec 5) (src2 : RegMem)
  /-- Form 4 (R152). -/
  | vunpckhpdEvex128 (p : Prefixes) (dest : BitVec 5) (mask : Mask) (src1 : BitVec 5) (src2 : RegMemBcst)
  /-- Form 5 (R153). -/
  | vunpckhpdEvex256 (p : Prefixes) (dest : BitVec 5) (mask : Mask) (src1 : BitVec 5) (src2 : RegMemBcst)
  /-- Form 6 (R154). -/
  | vunpckhpdEvex512 (p : Prefixes) (dest : BitVec 5) (mask : Mask) (src1 : BitVec 5) (src2 : RegMemBcst)
deriving DecidableEq, Repr

end Sys2Proof
end

