-- ==== Sys2Proof/Decode.lean ====
section
/-!
DEFINITION. Decoding (30_encoding.md): bytes at ascending addresses to an instruction and the bytes after it, total, every
rejection by name; then the encoder, written from the same tables, the encoded length (rule R108) and the reading of a row of
spec/opcode_table.json.
-/
namespace Sys2Proof

/-- Why an encoding of one of the six forms is refused. -/
inductive Unmodelled where
  /-- 16-bit addressing in `Prot32` (67H, R84); in real-address and virtual-8086 mode, where no rule describes addressing, a memory operand or
  67H (D2, log 17). -/
  | addr16
  /-- More than one segment override (R84, D17). -/
  | segOverrides
  /-- More than one 67H prefix (D17). -/
  | addrSizeRepeated
  /-- A REX byte directly followed by another REX byte (D17). -/
  | rexRepeated
  /-- `Prot32`: an EVEX prefix with stored B, R', V' or v3 equal to 0 (R95, D22). -/
  | evexBits32
deriving DecidableEq, Repr

/-- Why a byte string is no instruction of the model. -/
inductive Reject where
  /-- The encoding raises #UD (R84, R85, R87, R90, R96, R100). -/
  | invalidOpcode
  /-- More than 15 bytes: #GP(0) (R180). -/
  | tooLong
  /-- The available bytes end before the instruction does (10_state.md R25, D9). -/
  | truncated
  /-- Another instruction, out of scope (R85, 00_scope.md R5). -/
  | otherInstruction
  /-- 16-bit protected mode (D2). -/
  | mode16
  /-- An encoding of a form of this gate that is refused. R181 does not place these refusals. DESIGN CHOICE, log 18: each stands
  after #GP(0) for length and after every #UD and #NM condition of the form, whatever its encoding. -/
  | refusedForm (g : GateClass) (why : Unmodelled)
deriving DecidableEq, Repr

/-! ## Legacy prefixes and REX (R83, R84, R108) -/

/-- The legacy prefix bytes (R84). -/
inductive PrefixByte where
  | opsize
  | addrsize
  | lock
  | rep
  | seg (s : SegName)
deriving DecidableEq, Repr

/-- R84, R108: which legacy prefix a byte is; `none` for every other byte. -/
def legacyPrefix (b : Byte) : Option PrefixByte :=
  if b = 0x66 then some .opsize
  else if b = 0x67 then some .addrsize
  else if b = 0xF0 then some .lock
  else if b = 0xF2 then some .rep
  else if b = 0xF3 then some .rep
  else if b = 0x26 then some (.seg .es)
  else if b = 0x2E then some (.seg .cs)
  else if b = 0x36 then some (.seg .ss)
  else if b = 0x3E then some (.seg .ds)
  else if b = 0x64 then some (.seg .fs)
  else if b = 0x65 then some (.seg .gs)
  else none

/-- R84: the byte of a segment override. -/
def segByte : SegName → Byte
  | .es => 0x26
  | .cs => 0x2E
  | .ss => 0x36
  | .ds => 0x3E
  | .fs => 0x64
  | .gs => 0x65

/-- R83: a byte 40H..4FH. -/
def isRex (b : Byte) : Bool := b.extractLsb' 4 4 == 0x4#4

/-- What the bytes before the opcode, VEX or EVEX byte hold. -/
structure Scan where
  /-- How many 66H. -/
  opsize : Nat
  /-- How many 67H. -/
  addrsize : Nat
  lock : Bool
  /-- F2H or F3H present. -/
  rep : Bool
  /-- The segment overrides, in order. -/
  segs : List SegName
  /-- REX bytes that another legacy prefix follows: ignored (R83). -/
  deadRex : Nat
  /-- The REX byte that no legacy prefix has followed yet. -/
  rex : Option Byte
  /-- A REX byte was directly followed by another REX byte. -/
  rexPair : Bool
deriving DecidableEq, Repr

/-- Nothing read yet. -/
def Scan.start : Scan :=
  { opsize := 0, addrsize := 0, lock := false, rep := false, segs := [], deadRex := 0, rex := none, rexPair := false }

/-- A legacy prefix byte makes a REX byte before it ignored (R83). -/
def Scan.killRex (sc : Scan) : Scan :=
  match sc.rex with
  | none => sc
  | some _ => { sc with rex := none, deadRex := sc.deadRex + 1 }

/-- Reads one legacy prefix byte. -/
def Scan.push (sc : Scan) (p : PrefixByte) : Scan :=
  match p with
  | .opsize => { sc.killRex with opsize := sc.opsize + 1 }
  | .addrsize => { sc.killRex with addrsize := sc.addrsize + 1 }
  | .lock => { sc.killRex with lock := true }
  | .rep => { sc.killRex with rep := true }
  | .seg s => { sc.killRex with segs := sc.segs ++ [s] }

/-- Reads one REX byte. -/
def Scan.pushRex (sc : Scan) (b : Byte) : Scan :=
  { sc with rex := some b, rexPair := sc.rexPair || sc.rex.isSome }

/-- Reads legacy prefixes and (`long`) REX bytes up to the first other byte (R108). -/
def scanPrefixes (long : Bool) : Scan → List Byte → Scan × List Byte
  | sc, [] => (sc, [])
  | sc, b :: bs =>
    match legacyPrefix b with
    | some p => scanPrefixes long (sc.push p) bs
    | none => if long && isRex b then scanPrefixes long (sc.pushRex b) bs else (sc, b :: bs)

/-- The prefixes of a form, or why they are refused (D17): at most one segment override and one 67H, no two REX bytes
together. -/
def Scan.toPrefixes (sc : Scan) : Except Unmodelled Prefixes :=
  if 1 < sc.segs.length then .error .segOverrides
  else if 1 < sc.addrsize then .error .addrSizeRepeated
  else if sc.rexPair then .error .rexRepeated
  else .ok { seg := sc.segs.head?, addr32 := decide (sc.addrsize = 1), redundant := (sc.opsize - 1) + sc.deadRex }

/-- R90, R100: LOCK, 66H, F2H, F3H or REX before a VEX or EVEX prefix, which is #UD. -/
def Scan.badBeforeVex (sc : Scan) : Bool :=
  sc.lock || sc.rep || decide (0 < sc.opsize) || decide (0 < sc.deadRex) || sc.rex.isSome

/-! ## ModRM, SIB and displacement (R101 to R105) -/

/-- A register number of four bits from its extension bit and its three-bit field (R89, R101). -/
def num4 (hi : Bool) (lo : BitVec 3) : BitVec 4 := BitVec.ofBool hi ++ lo

/-- A register number of five bits (R95). -/
def num5 (top hi : Bool) (lo : BitVec 3) : BitVec 5 := BitVec.ofBool top ++ num4 hi lo

/-- The `r/m` operand as the bytes give it: a register by its three bits, or memory. -/
inductive RawRM where
  | reg (rm : BitVec 3)
  | mem (m : MemOperand)
deriving DecidableEq, Repr

/-- R103: a one-byte displacement. -/
def takeD8 : List Byte → Except Reject (BitVec 8 × List Byte)
  | d :: bs => .ok (d, bs)
  | [] => .error .truncated

/-- R103: a four-byte displacement, little-endian. -/
def takeD32 : List Byte → Except Reject (BitVec 32 × List Byte)
  | a :: b :: c :: d :: bs => .ok (d ++ c ++ b ++ a, bs)
  | _ => .error .truncated

/-- R101: the displacement that `mod` (not 11b) calls for where the form has a base register. -/
def takeDisp (mod : BitVec 2) (bs : List Byte) : Except Reject (Disp × List Byte) :=
  if mod = 0 then .ok (.none, bs)
  else if mod = 1 then
    match takeD8 bs with
    | .ok (d, rest) => .ok (.d8 d, rest)
    | .error e => .error e
  else
    match takeD32 bs with
    | .ok (d, rest) => .ok (.d32 d, rest)
    | .error e => .error e

/-- R102: the SIB byte and what follows it. -/
def takeSib (mod : BitVec 2) (x b : Bool) : List Byte → Except Reject (MemOperand × List Byte)
  | [] => .error .truncated
  | s :: bs =>
    let ixReg := num4 x (s.extractLsb' 3 3)
    let ix : Index := if ixReg = 4 then none else some (ixReg, s.extractLsb' 6 2)
    if s.extractLsb' 0 3 = 5 ∧ mod = 0 then
      match takeD32 bs with
      | .ok (d, rest) => .ok (.sibNoBase ix d, rest)
      | .error e => .error e
    else
      match takeDisp mod bs with
      | .ok (d, rest) => .ok (.sib (num4 b (s.extractLsb' 0 3)) ix d, rest)
      | .error e => .error e

/-- R101: a memory operand, `mod` not 11b. -/
def takeMem (mod : BitVec 2) (rm : BitVec 3) (x b : Bool) (bs : List Byte) : Except Reject (MemOperand × List Byte) :=
  if rm = 4 then takeSib mod x b bs
  else if rm = 5 ∧ mod = 0 then
    match takeD32 bs with
    | .ok (d, rest) => .ok (.disp32 d, rest)
    | .error e => .error e
  else
    match takeDisp mod bs with
    | .ok (d, rest) => .ok (.base (num4 b rm) d, rest)
    | .error e => .error e

/-- R101: ModRM and what follows it: the `reg` field, the `r/m` operand and the remaining bytes. Where addresses have 16 bits (not
`wide`) a memory operand is `none`, since no rule gives its address fields (D2). -/
def parseRM (wide x b : Bool) : List Byte → Except Reject (BitVec 3 × Option RawRM × List Byte)
  | [] => .error .truncated
  | m :: bs =>
    if m.extractLsb' 6 2 = 3 then .ok (m.extractLsb' 3 3, some (.reg (m.extractLsb' 0 3)), bs)
    else if wide then
      match takeMem (m.extractLsb' 6 2) (m.extractLsb' 0 3) x b bs with
      | .ok (op, rest) => .ok (m.extractLsb' 3 3, some (.mem op), rest)
      | .error e => .error e
    else .ok (m.extractLsb' 3 3, none, bs)

/-- Is 67H refused here, with any operand? In `Prot32` it selects 16-bit addressing (R84); for the other modes see log 17. -/
def Scan.narrow (m : Mode) (sc : Scan) : Bool := decide (m ≠ .long64) && decide (0 < sc.addrsize)

/-- Has a memory operand an address the model forms: 64- or 32-bit addressing (R84, R105, D2)? -/
def Scan.wide (m : Mode) (sc : Scan) : Bool := (m == .long64 || m == .prot32) && !sc.narrow m

/-- One encoding of a form, its bytes all read: #UD first (60_exceptions.md R181), then the refusals (log 18), then the
instruction. -/
def finishForm (m : Mode) (sc : Scan) (g : GateClass) (bad : Bool) (refused : Option Unmodelled) (rm : Option RawRM)
    (rest : List Byte) (build : Prefixes → RawRM → Instr) : Except Reject (Instr × List Byte) :=
  if bad then .error .invalidOpcode
  else if sc.narrow m then .error (.refusedForm g .addr16)
  else
    match refused, rm, sc.toPrefixes with
    | some w, _, _ => .error (.refusedForm g w)
    | none, none, _ => .error (.refusedForm g .addr16)
    | none, some _, .error w => .error (.refusedForm g w)
    | none, some o, .ok p => .ok (build p o, rest)

/-! ## Form 1 (R82 to R84) -/

/-- The second source of forms 1 to 3, `b` extending the register number. -/
def RawRM.toRegMem (b : Bool) : RawRM → RegMem
  | .reg rm => .reg (num5 false b rm)
  | .mem m => .mem m

/-- R82, R83: which row of form 1 the fields select. -/
def legacyInstr (rex : Option Byte) (p : Prefixes) (g : BitVec 3) (rm : RawRM) : Instr :=
  match rex with
  | none => .unpckhpd p (num5 false false g) (rm.toRegMem false)
  | some r => .unpckhpdRex p (num5 false (r.getLsbD 2) g) (rm.toRegMem (r.getLsbD 0))

/-- The bytes after `0F 15`: without 66H another instruction (R85), with LOCK, F2H or F3H #UD (R84). -/
def parseLegacy (m : Mode) (sc : Scan) (bs : List Byte) : Except Reject (Instr × List Byte) :=
  match parseRM (sc.wide m) ((sc.rex.getD 0).getLsbD 1) ((sc.rex.getD 0).getLsbD 0) bs with
  | .error e => .error e
  | .ok (g, rm, rest) =>
    if !sc.rep && sc.opsize == 0 then .error .otherInstruction
    else finishForm m sc .legacy (sc.rep || sc.lock) none rm rest fun p o => legacyInstr sc.rex p g o

/-! ## Forms 2 and 3 (R86 to R92) -/

/-- The fields of a VEX prefix, the extension bits uncomplemented. -/
structure Vex where
  three : Bool
  r : Bool
  x : Bool
  b : Bool
  vvvv : BitVec 4
  l : Bool
  pp : BitVec 2
deriving DecidableEq, Repr

/-- R86: the payload of the two-byte prefix C5H. -/
def vexC5 (v : Byte) : Vex :=
  { three := false, r := !v.getLsbD 7, x := false, b := false, vvvv := ~~~(v.extractLsb' 3 4), l := v.getLsbD 2,
    pp := v.extractLsb' 0 2 }

/-- R87: the payload of the three-byte prefix C4H; W is ignored (R88). -/
def vexC4 (v1 v2 : Byte) : Vex :=
  { three := true, r := !v1.getLsbD 7, x := !v1.getLsbD 6, b := !v1.getLsbD 5, vvvv := ~~~(v2.extractLsb' 3 4),
    l := v2.getLsbD 2, pp := v2.extractLsb' 0 2 }

/-- R89: outside `Long64` the stored B and v3 of the prefix are ignored (log 20) and only registers 0 to 7 exist. -/
def Vex.forMode (m : Mode) (v : Vex) : Vex :=
  if m = .long64 then v else { v with b := false, vvvv := v.vvvv &&& 7 }

/-- R88: which row of forms 2 and 3 the fields select. -/
def vexInstr (v : Vex) (p : Prefixes) (g : BitVec 3) (rm : RawRM) : Instr :=
  match v.three, v.l with
  | false, false => .vunpckhpd128C5 p (num5 false v.r g) (v.vvvv.setWidth 5) (rm.toRegMem v.b)
  | true, false => .vunpckhpd128C4 p (num5 false v.r g) (v.vvvv.setWidth 5) (rm.toRegMem v.b)
  | false, true => .vunpckhpd256C5 p (num5 false v.r g) (v.vvvv.setWidth 5) (rm.toRegMem v.b)
  | true, true => .vunpckhpd256C4 p (num5 false v.r g) (v.vvvv.setWidth 5) (rm.toRegMem v.b)

/-- R92: VL of a VEX prefix. -/
def Vex.len (v : Vex) : VecLen := if v.l then .v256 else .v128

/-- The modes in which a VEX or EVEX prefix is #UD (R90, R100; log 17). -/
def Mode.noVex (m : Mode) : Bool := m == .real || m == .v86

/-- The bytes after a VEX prefix of map 0F: opcode, then ModRM. Another opcode, or pp = 00b, is another instruction (R85); pp = 10b or
11b and the prefixes of R90 are #UD. -/
def parseVex (m : Mode) (sc : Scan) (v : Vex) : List Byte → Except Reject (Instr × List Byte)
  | [] => .error .truncated
  | op :: bs =>
    if op ≠ 0x15 ∨ v.pp = 0 then .error .otherInstruction
    else
      match parseRM (sc.wide m) v.x v.b bs with
      | .error e => .error e
      | .ok (g, rm, rest) =>
        finishForm m sc (.vex v.len) (v.pp != 1#2 || m.noVex || sc.badBeforeVex) none rm rest fun p o => vexInstr v p g o

/-- The bytes after a VEX prefix of an undefined map: #UD (R87), once opcode, ModRM and what ModRM calls for are there, so that the
length comes first (60_exceptions.md R181; log 23). -/
def parseNoMap (m : Mode) (sc : Scan) : List Byte → Except Reject (Instr × List Byte)
  | [] => .error .truncated
  | _ :: bs =>
    match parseRM (sc.wide m) false false bs with
    | .error e => .error e
    | .ok _ => .error .invalidOpcode

/-- R87: the map field of the three-byte prefix. -/
inductive VexMap where
  /-- Map 0F. -/
  | map0F
  /-- Maps 0F 38 and 0F 3A: other instructions. -/
  | other
  /-- Every other value: #UD. -/
  | undefined
deriving DecidableEq, Repr

/-- R87: mmmmm. -/
def vexMap (v1 : Byte) : VexMap :=
  if v1.extractLsb' 0 5 = 1 then .map0F
  else if v1.extractLsb' 0 5 = 2 ∨ v1.extractLsb' 0 5 = 3 then .other
  else .undefined

/-- R89, R95, R189: outside `Long64` the byte after C5H, C4H or 62H must have bits 7:6 = 11b, or the bytes are LDS, LES or
BOUND. -/
def vexRecognised (m : Mode) (v : Byte) : Bool := decide (m = .long64) || v.extractLsb' 6 2 == 3#2

/-- The bytes after C5H. -/
def parseC5 (m : Mode) (sc : Scan) : List Byte → Except Reject (Instr × List Byte)
  | [] => .error .truncated
  | v :: bs =>
    if vexRecognised m v then parseVex m sc ((vexC5 v).forMode m) bs else .error .otherInstruction

/-- The bytes after C4H. -/
def parseC4 (m : Mode) (sc : Scan) : List Byte → Except Reject (Instr × List Byte)
  | [] => .error .truncated
  | v1 :: rest =>
    if vexRecognised m v1 then
      match vexMap v1, rest with
      | .other, _ => .error .otherInstruction
      | _, [] => .error .truncated
      | .map0F, v2 :: bs => parseVex m sc ((vexC4 v1 v2).forMode m) bs
      | .undefined, _ :: bs => parseNoMap m sc bs
    else .error .otherInstruction

/-! ## Forms 4, 5 and 6 (R93 to R100) -/

/-- R96: reserved P0 bits, P1[2] = 0 or mm = 00b, #UD at opcode 15H in every map and with every pp (DEDUCED, log 24). -/
def evexReserved (p0 p1 : Byte) : Bool :=
  p0.extractLsb' 2 2 != 0#2 || !p1.getLsbD 2 || p0.extractLsb' 0 2 == 0#2

/-- R85: the EVEX encodings that are another instruction: another opcode, another map, pp = 00b (log 24). -/
def evexOther (p0 p1 op : Byte) : Bool :=
  op != 0x15#8 || (!evexReserved p0 p1 && (p0.extractLsb' 0 2 != 1#2 || p1.extractLsb' 0 2 == 0#2))

/-- R96, R85: the EVEX encodings at opcode 15H that are #UD: reserved bits, pp = 10b or 11b, W = 0, b = 1 with a register operand,
z = 1 with aaa = 000b (L'L = 11b is `evexLen`). -/
def evexBad (p0 p1 p2 : Byte) (rm : Option RawRM) : Bool :=
  evexReserved p0 p1 || p1.extractLsb' 0 2 != 1#2 || !p1.getLsbD 7 ||
    (match rm with
      | some (.reg _) => p2.getLsbD 4
      | _ => false) || (p2.getLsbD 7 && p2.extractLsb' 0 3 == 0#3)

/-- R98: the writemask fields z and aaa. -/
def evexMask (p2 : Byte) : Mask :=
  if p2.extractLsb' 0 3 = 0 then .none
  else if p2.getLsbD 7 then .zero (p2.extractLsb' 0 3)
  else .merge (p2.extractLsb' 0 3)

/-- R95: the second source; for a register X and B extend its number, for memory b selects broadcast (R99). -/
def evexSrc2 (p0 p2 : Byte) : RawRM → RegMemBcst
  | .reg rm => .reg (num5 (!p0.getLsbD 6) (!p0.getLsbD 5) rm)
  | .mem m => if p2.getLsbD 4 then .bcst m else .mem m

/-- R95: the first source, V' : vvvv. -/
def evexSrc1 (p1 p2 : Byte) : BitVec 5 := BitVec.ofBool (!p2.getLsbD 3) ++ ~~~(p1.extractLsb' 3 4)

/-- R97: VL of an EVEX prefix; `none` for L'L = 11b. -/
def evexLen (p2 : Byte) : Option VecLen :=
  if p2.extractLsb' 5 2 = 0 then some .v128
  else if p2.extractLsb' 5 2 = 1 then some .v256
  else if p2.extractLsb' 5 2 = 2 then some .v512
  else none

/-- R94: form 4, 5 or 6 from its fields. -/
def evexInstr (vl : VecLen) (p0 p1 p2 : Byte) (p : Prefixes) (g : BitVec 3) (rm : RawRM) : Instr :=
  let dest := num5 (!p0.getLsbD 4) (!p0.getLsbD 7) g
  match vl with
  | .v128 => .vunpckhpdEvex128 p dest (evexMask p2) (evexSrc1 p1 p2) (evexSrc2 p0 p2 rm)
  | .v256 => .vunpckhpdEvex256 p dest (evexMask p2) (evexSrc1 p1 p2) (evexSrc2 p0 p2 rm)
  | .v512 => .vunpckhpdEvex512 p dest (evexMask p2) (evexSrc1 p1 p2) (evexSrc2 p0 p2 rm)

/-- D22: in `Prot32` stored B, R', V' and v3 must all be 1 (R and X are, or the bytes are BOUND). -/
def evexBitsOk (m : Mode) (p0 p1 p2 : Byte) : Bool :=
  decide (m = .long64) || (p0.getLsbD 5 && p0.getLsbD 4 && p2.getLsbD 3 && p1.getLsbD 6)

/-- The bytes after 62H P0 P1 P2 15H. -/
def parseEvexOperands (m : Mode) (sc : Scan) (p0 p1 p2 : Byte) (bs : List Byte) : Except Reject (Instr × List Byte) :=
  match parseRM (sc.wide m) (!p0.getLsbD 6) (!p0.getLsbD 5) bs with
  | .error e => .error e
  | .ok (g, rm, rest) =>
    match evexLen p2 with
    | none => .error .invalidOpcode
    | some vl =>
      finishForm m sc (.evex vl) (evexBad p0 p1 p2 rm || m.noVex || sc.badBeforeVex)
        (if evexBitsOk m p0 p1 p2 then none else some .evexBits32) rm rest fun p o => evexInstr vl p0 p1 p2 p g o

/-- The bytes after 62H. -/
def parseEvex (m : Mode) (sc : Scan) : List Byte → Except Reject (Instr × List Byte)
  | [] => .error .truncated
  | p0 :: rest =>
    if vexRecognised m p0 then
      match rest with
      | p1 :: p2 :: op :: bs => if evexOther p0 p1 op then .error .otherInstruction else parseEvexOperands m sc p0 p1 p2 bs
      | _ => .error .truncated
    else .error .otherInstruction

/-! ## The decoder -/

/-- The byte after the prefixes selects the shape (R80). -/
def parseHead (m : Mode) (sc : Scan) : List Byte → Except Reject (Instr × List Byte)
  | [] => .error .truncated
  | b :: bs =>
    if b = 0x0F then
      match bs with
      | [] => .error .truncated
      | op :: rest => if op = 0x15 then parseLegacy m sc rest else .error .otherInstruction
    else if b = 0xC5 then parseC5 m sc bs
    else if b = 0xC4 then parseC4 m sc bs
    else if b = 0x62 then parseEvex m sc bs
    else .error .otherInstruction

/-- One instruction from a window of at most 15 bytes. -/
def parseWindow (m : Mode) (bs : List Byte) : Except Reject (Instr × List Byte) :=
  let sc := scanPrefixes (decide (m = .long64)) Scan.start bs
  parseHead m sc.1 sc.2

/-- The decoder: the instruction the bytes begin with and the bytes after it. An instruction that needs a sixteenth byte is
too long (R180), whatever it is (log 23); that comes before #UD (60_exceptions.md R181), since `parseWindow` answers #UD only
for an encoding whose bytes are all there. -/
def decode (m : Mode) (bs : List Byte) : Except Reject (Instr × List Byte) :=
  if m = .prot16 then .error .mode16
  else
    match parseWindow m (bs.take Config.maxInstrBytes) with
    | .ok (i, rest) => .ok (i, rest ++ bs.drop Config.maxInstrBytes)
    | .error .truncated => if bs.length < Config.maxInstrBytes then .error .truncated else .error .tooLong
    | .error e => .error e

/-! ## The encoded length (R108) -/

/-- The bytes of a displacement. -/
def Disp.length : Disp → Nat
  | .none => 0
  | .d8 _ => 1
  | .d32 _ => 4

/-- ModRM, SIB and displacement of a memory operand. -/
def MemOperand.length : MemOperand → Nat
  | .base _ d => 1 + d.length
  | .sib _ _ d => 2 + d.length
  | .sibNoBase _ _ => 6
  | .disp32 _ => 5

/-- ModRM, SIB and displacement of an operand of forms 1 to 3. -/
def RegMem.length : RegMem → Nat
  | .reg _ => 1
  | .mem m => m.length

/-- ModRM, SIB and displacement of an operand of forms 4 to 6. -/
def RegMemBcst.length : RegMemBcst → Nat
  | .reg _ => 1
  | .mem m => m.length
  | .bcst m => m.length

/-- The legacy prefix bytes a form carries beside the 66H it needs. -/
def Prefixes.length (p : Prefixes) : Nat :=
  (if p.seg.isSome then 1 else 0) + (if p.addr32 then 1 else 0) + p.redundant

/-- `len`, the encoded length of the instruction in bytes (R108). -/
def Instr.length : Instr → Nat
  | .unpckhpd p _ s => p.length + 3 + s.length
  | .unpckhpdRex p _ s => p.length + 4 + s.length
  | .vunpckhpd128C5 p _ _ s => p.length + 3 + s.length
  | .vunpckhpd128C4 p _ _ s => p.length + 4 + s.length
  | .vunpckhpd256C5 p _ _ s => p.length + 3 + s.length
  | .vunpckhpd256C4 p _ _ s => p.length + 4 + s.length
  | .vunpckhpdEvex128 p _ _ _ s => p.length + 5 + s.length
  | .vunpckhpdEvex256 p _ _ _ s => p.length + 5 + s.length
  | .vunpckhpdEvex512 p _ _ _ s => p.length + 5 + s.length

/-! ## The encoder -/

/-- The low three bits of a register number. -/
def low3 {n : Nat} (r : BitVec n) : BitVec 3 := r.extractLsb' 0 3

/-- R101: a ModRM byte. -/
def modrm (mod : BitVec 2) (g rm : BitVec 3) : Byte := mod ++ g ++ rm

/-- R103: a four-byte displacement, little-endian. -/
def d32Bytes (d : BitVec 32) : List Byte :=
  [d.extractLsb' 0 8, d.extractLsb' 8 8, d.extractLsb' 16 8, d.extractLsb' 24 8]

/-- R101: `mod` for a displacement after a base register. -/
def Disp.mod : Disp → BitVec 2
  | .none => 0
  | .d8 _ => 1
  | .d32 _ => 2

/-- R103: the displacement bytes. -/
def Disp.bytes : Disp → List Byte
  | .none => []
  | .d8 d => [d]
  | .d32 d => d32Bytes d

/-- R102: the SIB byte; with no index SIB.index = 100b and scale 0. -/
def sibByte (ix : Index) (base : BitVec 3) : Byte :=
  match ix with
  | none => (0#2 ++ 4#3) ++ base
  | some (r, sc) => (sc ++ low3 r) ++ base

/-- R101, R102: ModRM with `reg` field `g`, SIB and displacement of a memory operand. -/
def MemOperand.bytes (g : BitVec 3) : MemOperand → List Byte
  | .base b d => modrm d.mod g (low3 b) :: d.bytes
  | .sib b ix d => modrm d.mod g 4 :: sibByte ix (low3 b) :: d.bytes
  | .sibNoBase ix d => modrm 0 g 4 :: sibByte ix 5 :: d32Bytes d
  | .disp32 d => modrm 0 g 5 :: d32Bytes d

/-- X of an index. -/
def Index.xbit (ix : Index) : Bool :=
  match ix with
  | none => false
  | some (r, _) => r.getLsbD 3

/-- X of a memory operand. -/
def MemOperand.xbit : MemOperand → Bool
  | .base _ _ => false
  | .sib _ ix _ => Index.xbit ix
  | .sibNoBase ix _ => Index.xbit ix
  | .disp32 _ => false

/-- B of a memory operand. -/
def MemOperand.bbit : MemOperand → Bool
  | .base b _ => b.getLsbD 3
  | .sib b _ _ => b.getLsbD 3
  | .sibNoBase _ _ => false
  | .disp32 _ => false

/-- ModRM and what follows it, forms 1 to 3. -/
def RegMem.bytes (g : BitVec 3) : RegMem → List Byte
  | .reg r => [modrm 3 g (low3 r)]
  | .mem m => m.bytes g

/-- X of an operand of forms 1 to 3. -/
def RegMem.xbit : RegMem → Bool
  | .reg _ => false
  | .mem m => m.xbit

/-- B of an operand of forms 1 to 3. -/
def RegMem.bbit : RegMem → Bool
  | .reg r => r.getLsbD 3
  | .mem m => m.bbit

/-- ModRM and what follows it, forms 4 to 6. -/
def RegMemBcst.bytes (g : BitVec 3) : RegMemBcst → List Byte
  | .reg r => [modrm 3 g (low3 r)]
  | .mem m => m.bytes g
  | .bcst m => m.bytes g

/-- X of an operand of forms 4 to 6: for a register the fifth bit of its number (R95). -/
def RegMemBcst.xbit : RegMemBcst → Bool
  | .reg r => r.getLsbD 4
  | .mem m => m.xbit
  | .bcst m => m.xbit

/-- B of an operand of forms 4 to 6. -/
def RegMemBcst.bbit : RegMemBcst → Bool
  | .reg r => r.getLsbD 3
  | .mem m => m.bbit
  | .bcst m => m.bbit

/-- The broadcast bit b of an operand of forms 4 to 6 (R99). -/
def RegMemBcst.isBcst : RegMemBcst → Bool
  | .reg _ => false
  | .mem _ => false
  | .bcst _ => true

/-- R84: the legacy prefix bytes; redundant bytes are written as repeated 66H. -/
def Prefixes.bytes (p : Prefixes) : List Byte :=
  (match p.seg with
    | none => []
    | some s => [segByte s]) ++ (if p.addr32 then [0x67#8] else []) ++ List.replicate p.redundant 0x66#8

/-- R83: a REX byte with W = 0. -/
def rexByte (r x b : Bool) : Byte := 4#4 ++ 0#1 ++ BitVec.ofBool r ++ BitVec.ofBool x ++ BitVec.ofBool b

/-- R86: the payload byte of C5H, pp = 01b. -/
def c5Byte (r : Bool) (v : BitVec 5) (l : Bool) : Byte :=
  BitVec.ofBool (!r) ++ ~~~(v.extractLsb' 0 4) ++ BitVec.ofBool l ++ 1#2

/-- R87: the first payload byte of C4H, map 0F. -/
def c4Byte1 (r x b : Bool) : Byte := BitVec.ofBool (!r) ++ BitVec.ofBool (!x) ++ BitVec.ofBool (!b) ++ 1#5

/-- R87: the second payload byte of C4H, W = 0, pp = 01b. -/
def c4Byte2 (v : BitVec 5) (l : Bool) : Byte := 0#1 ++ ~~~(v.extractLsb' 0 4) ++ BitVec.ofBool l ++ 1#2

/-- R93, R94: P0, map 0F. -/
def evexP0 (r x b r' : Bool) : Byte :=
  BitVec.ofBool (!r) ++ BitVec.ofBool (!x) ++ BitVec.ofBool (!b) ++ BitVec.ofBool (!r') ++ 1#4

/-- R93, R94: P1, W = 1, pp = 01b. -/
def evexP1 (v : BitVec 5) : Byte := 1#1 ++ ~~~(v.extractLsb' 0 4) ++ 5#3

/-- R98: z of a writemask. -/
def Mask.zbit : Mask → Bool
  | .zero _ => true
  | _ => false

/-- R98: aaa of a writemask. -/
def Mask.aaa : Mask → BitVec 3
  | .none => 0
  | .merge k => k
  | .zero k => k

/-- R93, R94, R97: P2. -/
def evexP2 (mask : Mask) (ll : BitVec 2) (b : Bool) (v : BitVec 5) : Byte :=
  BitVec.ofBool mask.zbit ++ ll ++ BitVec.ofBool b ++ BitVec.ofBool (!v.getLsbD 4) ++ mask.aaa

/-- R86, R88: a C5 encoding. -/
def encodeC5 (p : Prefixes) (l : Bool) (dest src1 : BitVec 5) (s : RegMem) : List Byte :=
  p.bytes ++ [0xC5#8, c5Byte (dest.getLsbD 3) src1 l, 0x15#8] ++ s.bytes (low3 dest)

/-- R87, R88: a C4 encoding. -/
def encodeC4 (p : Prefixes) (l : Bool) (dest src1 : BitVec 5) (s : RegMem) : List Byte :=
  p.bytes ++ [0xC4#8, c4Byte1 (dest.getLsbD 3) s.xbit s.bbit, c4Byte2 src1 l, 0x15#8] ++ s.bytes (low3 dest)

/-- R93, R94: an EVEX encoding. -/
def encodeEvex (p : Prefixes) (ll : BitVec 2) (dest : BitVec 5) (mask : Mask) (src1 : BitVec 5) (s : RegMemBcst) :
    List Byte :=
  p.bytes ++ [0x62#8, evexP0 (dest.getLsbD 3) s.xbit s.bbit (dest.getLsbD 4), evexP1 src1,
    evexP2 mask ll s.isBcst src1, 0x15#8] ++ s.bytes (low3 dest)

/-- The bytes of a well-formed instruction (R82, R88, R94), ignored bits at 0 (stored 1 where complemented). -/
def encode : Instr → List Byte
  | .unpckhpd p d s => p.bytes ++ [0x66#8, 0x0F#8, 0x15#8] ++ s.bytes (low3 d)
  | .unpckhpdRex p d s =>
    p.bytes ++ [0x66#8, rexByte (d.getLsbD 3) s.xbit s.bbit, 0x0F#8, 0x15#8] ++ s.bytes (low3 d)
  | .vunpckhpd128C5 p d s1 s => encodeC5 p false d s1 s
  | .vunpckhpd128C4 p d s1 s => encodeC4 p false d s1 s
  | .vunpckhpd256C5 p d s1 s => encodeC5 p true d s1 s
  | .vunpckhpd256C4 p d s1 s => encodeC4 p true d s1 s
  | .vunpckhpdEvex128 p d k s1 s => encodeEvex p 0 d k s1 s
  | .vunpckhpdEvex256 p d k s1 s => encodeEvex p 1 d k s1 s
  | .vunpckhpdEvex512 p d k s1 s => encodeEvex p 2 d k s1 s

/-! ## Reading a row of spec/opcode_table.json (R116; log 28) -/

/-- The bytes of a table word, first byte the most significant (R116: address order, the numbers of the table's own `fixed`),
then zeros up to 15 bytes. -/
def tableBytesHigh (nbits w : Nat) : List Byte :=
  ((List.range (nbits / 8)).map fun k => BitVec.ofNat 8 (w >>> (nbits - 8 * (k + 1)))) ++
    List.replicate (Config.maxInstrBytes - nbits / 8) 0

/-- The bytes of a table word, first byte the least significant, then zeros up to 15 bytes. -/
def tableBytesLow (nbits w : Nat) : List Byte :=
  ((List.range (nbits / 8)).map fun k => BitVec.ofNat 8 (w >>> (8 * k))) ++
    List.replicate (Config.maxInstrBytes - nbits / 8) 0

/-- The bytes of a table word: in the table's own numbering where that is an instruction, else in the other (log 28). -/
def tableBytes (nbits w : Nat) : List Byte :=
  match decode .long64 (tableBytesHigh nbits w) with
  | .ok _ => tableBytesHigh nbits w
  | .error _ => tableBytesLow nbits w

/-- The instruction the decoder reads from a table word, in `Long64`, the one mode in which all nine rows exist. -/
def decodeTableWord (nbits w : Nat) : Option Instr :=
  match decode .long64 (tableBytes nbits w) with
  | .ok (i, _) => some i
  | .error _ => none

end Sys2Proof
end

