-- ==== Sys2Proof/Machine/State.lean ====
section
/-!
DEFINITION. The state of the machine as plain data, the reasons a step can stop, and the state after reset (10_state.md;
60_exceptions.md rules R172, R184; 20_memory.md rules R61, R70, R71).
-/
namespace Sys2Proof.Machine

/-- One segment register: the selector and its hidden part (10_state.md rules R26, R32; 20_memory.md rules R59, R60). -/
structure SegReg where
  selector : BitVec 16
  base : Word64
  /-- The highest effective address of the segment, in bytes; `segRules` may say otherwise (log 6). -/
  limit : BitVec 32
  readable : Bool
  /-- CS.L, read in CS only (R32). -/
  long : Bool
  /-- CS.D, read in CS only (R32). -/
  big : Bool
deriving DecidableEq, Repr

/-- `MAXVL`, the width of the widest vector register (00_scope.md rule R7). -/
inductive MaxVL where
  | m128
  | m256
  | m512
deriving DecidableEq, Repr

/-- The width of a canonical linear address (00_scope.md rule R8). -/
inductive LinearBits where
  | b48
  | b57
deriving DecidableEq, Repr

/-- What the processor is: the parameters of 00_scope.md rule R8 and the identification bits of 10_state.md rule R33. No step
writes them. -/
structure Processor where
  maxvl : MaxVL
  hasSSE2 : Bool
  hasAVX : Bool
  hasAVX512F : Bool
  hasAVX512VL : Bool
  /-- CPUID.01H:ECX bit 26 (R33): XCR0 exists only when it is set (R31). -/
  hasXSAVE : Bool
  linearBits : LinearBits
deriving DecidableEq, Repr

/-- What `Translate` answers for a page (20_memory.md rule R61): a physical frame, or a page fault with the P, RSVD and PK bits of
its error code. -/
inductive PageAccess where
  | frame (f : Nat)
  | fault (present rsvd pk : Bool)
deriving DecidableEq, Repr

/-- One rule of `Translate`: a linear page number and the answers for a user-mode (CPL = 3) and a supervisor-mode read. -/
structure PageRule where
  page : Nat
  user : PageAccess
  supervisor : PageAccess
deriving DecidableEq, Repr

/-- One rule of `SegCheck` (20_memory.md rule R60): whether the effective addresses `first` to `last` lie within the segment. -/
structure SegRule where
  seg : SegName
  first : Nat
  last : Nat
  within : Bool
deriving DecidableEq, Repr

/-- A device region of the physical address space (20_memory.md rule R70). -/
structure Region where
  base : Nat
  size : Nat
deriving DecidableEq, Repr

/-- Memory: physical address and byte, strictly rising addresses (`Memory.wf`); an address that is not listed has no value
(20_memory.md rule R71, 92_eei_decisions.md D16). -/
abbrev Memory := List Host.Cell

/-- The exceptions of 60_exceptions.md rule R172. -/
inductive ExcKind where
  | ud
  | nm
  | ss
  | gp
  | pf
  | ac
deriving DecidableEq, Repr

/-- What the fault outcome holds beside CR2 (60_exceptions.md rules R172, R184; 92_eei_decisions.md D11). -/
structure Exception where
  kind : ExcKind
  errorCode : Option (BitVec 32)
deriving DecidableEq, Repr

/-- One byte read: its linear address and the byte the read oracle answered (20_memory.md rules R64, R66). -/
structure ReadEvent where
  addr : Word64
  value : Byte
deriving DecidableEq, Repr

/-- The byte reads of one execution, each byte once; the places in the list order nothing (20_memory.md rule R64; log 13). -/
abbrev Load := List ReadEvent

/-- One answer of the read oracle that is not memory's byte (20_memory.md rule R66, 92_eei_decisions.md D8, D18): what a write of
another agent makes the byte at linear address `addr` read as in load number `load` of the run. -/
structure OracleAnswer where
  load : Nat
  addr : Word64
  value : Byte
deriving DecidableEq, Repr

/-- The whole state the spec gives the machine. -/
structure State where
  /-- The vector registers (10_state.md R20, R21). -/
  zmm : Vector VecReg 32
  /-- The opmask registers k0..k7 (R23). -/
  opmask : Vector Word64 8
  /-- The general registers, 0 RAX, 1 RCX, 2 RDX, 3 RBX, 4 RSP, 5 RBP, 6 RSI, 7 RDI, 8..15 R8..R15 (R24). -/
  gpr : Vector Word64 16
  /-- The instruction pointer (R25). -/
  rip : Word64
  /-- ES, CS, SS, DS, FS, GS, numbers 0..5 (R26). -/
  seg : Vector SegReg 6
  /-- RFLAGS (R27). -/
  rflags : Word64
  /-- MXCSR (R28). -/
  mxcsr : BitVec 32
  /-- CR0 (R29). -/
  cr0 : Word64
  /-- CR2, the linear address of the last #PF (60_exceptions.md R178). -/
  cr2 : Word64
  /-- CR4 (R30). -/
  cr4 : Word64
  /-- XCR0 (R31); it exists only when `proc.hasXSAVE`, and is read through `State.xcr0Bit`. -/
  xcr0 : Word64
  /-- IA32_EFER (R32). -/
  efer : Word64
  /-- The current privilege level (R32). -/
  cpl : BitVec 2
  /-- The processor's fixed parameters (R33, 00_scope.md R7, R8). -/
  proc : Processor
  /-- Memory by physical address (20_memory.md R71). -/
  mem : Memory
  /-- `Translate` (20_memory.md R61): the first rule of a page counts, a page with no rule is its own frame. -/
  pages : List PageRule
  /-- `SegCheck` (20_memory.md R60): the first rule that names a segment and covers an effective address counts, else the segment's
  limit does. -/
  segRules : List SegRule
  /-- The device regions (20_memory.md R70). -/
  devices : List Region
  /-- The read oracle (20_memory.md R66): the first answer for a load and an address counts, else memory's byte does. -/
  oracle : List OracleAnswer
  /-- The fault outcome, once an exception has been raised (60_exceptions.md R184). -/
  exception : Option Exception
  /-- The record of byte reads: the loads of the run in program order (20_memory.md R66). -/
  reads : List Load
  /-- The model's own counter of free choices drawn (log 8). -/
  draws : Nat
deriving DecidableEq, Repr

/-- Why the machine has stopped. -/
inductive Fault where
  /-- Raised by `step` in a state whose exception has been raised: the fault outcome is sticky and no handler runs
  (60_exceptions.md R184, D11). Safe. -/
  | exceptionTaken (e : Exception)
  /-- Raised by the memory operand of forms 2 to 6 when alignment checking is enabled and a full-width operand is not aligned to its
  size: "a fault of unknown kind (never as success)" (20_memory.md R63, D6). Safe. -/
  | alignmentUnknown
deriving DecidableEq, Repr

/-- Why the model gives no meaning. -/
inductive Refusal where
  /-- An instruction that exec has no meaning for: raised by no arm of this model. Safe. -/
  | notModelled (mnemonic : String)
  /-- Raised by the decoder: another instruction, out of scope (00_scope.md R5, 30_encoding.md R85). Safe. -/
  | otherInstruction
  /-- Raised in 16-bit protected mode (00_scope.md R5, D2). Safe. -/
  | mode16
  /-- Raised for 67H in `Prot32`, which selects 16-bit addressing (30_encoding.md R84, D2), and in real-address and virtual-8086 mode for
  a memory operand and for 67H, since no rule describes addressing there (00_scope.md R5; log 17). Safe. -/
  | addr16
  /-- Raised when the instruction's bytes are not all at canonical, non-wrapping, mapped addresses (10_state.md R25, D9), or another
  agent writes one of them (20_memory.md R69, D14). Safe. -/
  | fetchUnavailable
  /-- Raised by the decoder: more than one segment override (30_encoding.md R84, D17). Safe. -/
  | segOverrides
  /-- Raised by the decoder: more than one 67H prefix (D17). Safe. -/
  | addrSizeRepeated
  /-- Raised by the decoder: two REX bytes together (D17). Safe. -/
  | rexRepeated
  /-- Raised by the decoder in `Prot32`: EVEX bits that must be stored as 1 (30_encoding.md R95, D22). Safe. -/
  | evexBits32
  /-- Raised by a memory operand that runs past the top of the effective-address space (20_memory.md R58, D24). Safe. -/
  | operandPastTop
  /-- Raised by a memory operand that touches a device region (20_memory.md R70, D15). Safe. -/
  | deviceMemory
  /-- Raised by the read of an operand byte at a physical address the memory does not hold (20_memory.md R71, D16; log 12). Safe. -/
  | memoryAbsent
deriving DecidableEq, Repr

/-- What a step answers. -/
abbrev Stop := Host.Outcome State Fault Refusal

/-- A segment register after reset but for CS: PRESUMED, the family's values (log 2). -/
def SegReg.reset : SegReg :=
  { selector := 0, base := 0, limit := 0xFFFF, readable := true, long := false, big := false }

/-- CS after reset: selector F000H, base FFFF0000H (10_state.md R36); limit and attributes PRESUMED (log 2). -/
def SegReg.resetCS : SegReg :=
  { selector := 0xF000, base := 0xFFFF0000, limit := 0xFFFF, readable := true, long := false, big := false }

/-- The processor the spec's examples take (00_scope.md R8): DESIGN CHOICE, log 3. -/
def Processor.example512 : Processor :=
  { maxvl := .m512, hasSSE2 := true, hasAVX := true, hasAVX512F := true, hasAVX512VL := true, hasXSAVE := true,
    linearBits := .b48 }

/-- The state right after reset (10_state.md R36, 70_reset_and_hazards.md R210): real-address mode, the first fetch at physical
FFFFFFF0H. RDX is the processor signature, a number R36 leaves to the model (PRESUMED, log 2). -/
def State.reset : State :=
  { zmm := Vector.replicate 32 (Vector.replicate 8 0)
    opmask := Vector.replicate 8 0
    gpr := #v[0, 0, 0x00050657, 0, 0, 0, 0, 0, 0, 0, 0, 0, 0, 0, 0, 0]
    rip := 0xFFF0
    seg := #v[SegReg.reset, SegReg.resetCS, SegReg.reset, SegReg.reset, SegReg.reset, SegReg.reset]
    rflags := 0x2
    mxcsr := 0x1F80
    cr0 := 0x60000010
    cr2 := 0
    cr4 := 0
    xcr0 := 1
    efer := 0
    cpl := 0
    proc := Processor.example512
    mem := []
    pages := []
    segRules := []
    devices := []
    oracle := []
    exception := none
    reads := []
    draws := 0 }

end Sys2Proof.Machine
end

