-- ==== Sys2Proof/Machine/Ops.lean ====
section
/-!
DEFINITION. The named operations: memory, the vector functions (40_unpckhpd_sse_vex.md rule R130, 41_vunpckhpd_evex.md rules R150,
R151), register access, advancing rip, recording a read, and raising an exception (60_exceptions.md rules R183, R184).
-/
namespace Sys2Proof

/-- `KL`, the number of 64-bit elements of a vector length (00_scope.md R6). -/
def VecLen.kl : VecLen → Nat
  | .v128 => 2
  | .v256 => 4
  | .v512 => 8

/-- VL/8, the size of a full-width memory operand in bytes (20_memory.md R51). -/
def VecLen.bytes (vl : VecLen) : Nat := 8 * vl.kl

end Sys2Proof

namespace Sys2Proof.Machine

/-! ## Memory -/

/-- The byte at a physical address; `none` where memory holds none (20_memory.md R71, D16). -/
def Memory.read : Memory → Nat → Option Byte
  | [], _ => none
  | (a, b) :: m, x => if a = x then some b else Memory.read m x

/-- Memory with the byte at one address set, keeping the canonical form. No instruction writes memory (R52): this builds launch
memories. -/
def Memory.write : Memory → Nat → Byte → Memory
  | [], x, v => [(x, v)]
  | (a, b) :: m, x, v =>
    if x < a then (x, v) :: (a, b) :: m
    else if a = x then (x, v) :: m
    else (a, b) :: Memory.write m x v

/-- The canonical form: addresses strictly rising. -/
def Memory.wf : Memory → Bool
  | [] => true
  | [_] => true
  | (a, _) :: (b, v) :: m => decide (a < b) && Memory.wf ((b, v) :: m)

/-- 20_memory.md R70: a physical address in a device region. -/
def State.isDevice (s : State) (pa : Nat) : Bool :=
  s.devices.any fun r => decide (r.base ≤ pa) && decide (pa < r.base + r.size)

/-- Little-endian (20_memory.md R53): the first byte is the least significant. -/
def bytesToWord : List Byte → Word64
  | [] => 0
  | b :: bs => b.setWidth 64 ||| (bytesToWord bs <<< 8)

/-- An operand of up to 64 bytes as vector elements: element j is bytes 8j..8j+7 (R53), 0 where there are no bytes. -/
def bytesToVec (bs : List Byte) : VecReg :=
  Vector.ofFn fun j => bytesToWord ((bs.drop (8 * j.val)).take 8)

/-! ## Vectors -/

/-- `InterleaveHigh(VL, a, b)` (40_unpckhpd_sse_vex.md R130): element 2l is the high element of a's lane l, element 2l+1 the high
element of b's lane l; elements at or above KL are 0. -/
def interleaveHigh (vl : VecLen) (a b : VecReg) : VecReg :=
  Vector.ofFn fun j =>
    if j.val < vl.kl then
      if h : j.val % 2 = 0 then a[j.val + 1]'(by omega) else b[j.val]
    else 0

/-- The broadcast second source (41_vunpckhpd_evex.md R150): one element copied to all KL elements. -/
def broadcast (vl : VecLen) (e : Word64) : VecReg :=
  Vector.ofFn fun j => if j.val < vl.kl then e else 0

/-- 30_encoding.md R98, 41_vunpckhpd_evex.md R151, R155: is element `j` written? `ks` are the opmask registers. -/
def maskSelects (mask : Mask) (ks : Vector Word64 8) (j : Nat) : Bool :=
  match mask with
  | .none => true
  | .merge k => (ks[k.toNat]'k.isLt).getLsbD j
  | .zero k => (ks[k.toNat]'k.isLt).getLsbD j

/-- `MaskWrite` (41_vunpckhpd_evex.md R151): below KL an element is `t`'s where the mask selects it, else the old one (merging) or 0
(zeroing); at and above KL it is 0. -/
def maskWrite (vl : VecLen) (mask : Mask) (ks : Vector Word64 8) (t old : VecReg) : VecReg :=
  Vector.ofFn fun j =>
    if j.val < vl.kl then
      if maskSelects mask ks j.val then t[j.val]
      else
        match mask with
        | .zero _ => 0
        | _ => old[j.val]
    else 0

/-- The write of forms 2 and 3 (10_state.md R22): elements at and above KL are zeroed. -/
def zeroUpper (vl : VecLen) (t : VecReg) : VecReg :=
  Vector.ofFn fun j => if j.val < vl.kl then t[j.val] else 0

/-- The write of form 1 (10_state.md R22): bits [MAXVL-1:128] keep their old value. -/
def keepUpper (t old : VecReg) : VecReg :=
  Vector.ofFn fun j => if j.val < 2 then t[j.val] else old[j.val]

/-! ## Registers -/

/-- Vector register `n` (10_state.md R20). -/
def State.vec (s : State) (n : BitVec 5) : VecReg := s.zmm[n.toNat]'n.isLt

/-- The state with vector register `n` written whole. -/
def State.setVec (s : State) (n : BitVec 5) (v : VecReg) : State := { s with zmm := s.zmm.set n.toNat v n.isLt }

/-- General register `n`, all 64 bits (10_state.md R24). -/
def State.reg (s : State) (n : BitVec 4) : Word64 := s.gpr[n.toNat]'n.isLt

/-- The number of a segment register (10_state.md R26). -/
def segIndex : SegName → Fin 6
  | .es => 0
  | .cs => 1
  | .ss => 2
  | .ds => 3
  | .fs => 4
  | .gs => 5

/-- A segment register with its hidden part. -/
def State.segReg (s : State) (n : SegName) : SegReg := s.seg[(segIndex n).val]

/-- The low 32 bits, zero-extended. -/
def low32 (a : Word64) : Word64 := (a.setWidth 32).setWidth 64

/-! ## Modes (10_state.md R29, R32) -/

/-- The operating mode of the state (10_state.md R32, 00_scope.md R5): `Long64` when EFER.LMA = 1 and CS.L = 1, real-address mode
when CR0.PE = 0, virtual-8086 mode when EFLAGS.VM = 1, `Prot32` when CS.D = 1, else 16-bit protected mode. -/
def State.mode (s : State) : Mode :=
  if s.efer.getLsbD 10 && (s.segReg .cs).long then .long64
  else if s.cr0.getLsbD 0 = false then .real
  else if s.rflags.getLsbD 17 then .v86
  else if (s.segReg .cs).big then .prot32
  else .prot16

/-! ## Completing and recording -/

/-- `rip <- rip + len` (10_state.md R25): 64 bits in `Long64`, the 32 bits of eip elsewhere (log 27). -/
def State.advance (s : State) (len : Nat) : State :=
  { s with rip := if s.mode = .long64 then s.rip + BitVec.ofNat 64 len else low32 (s.rip + BitVec.ofNat 64 len) }

/-- Records the byte reads of one execution (20_memory.md R66). -/
def State.recordRead (s : State) (e : Load) : State := { s with reads := s.reads ++ [e] }

/-- Counts one free choice as drawn (log 8). -/
def State.draw (s : State) : State := { s with draws := s.draws + 1 }

/-! ## Raising an exception (60_exceptions.md R183, R184; 92_eei_decisions.md D11) -/

/-- The vector number of an exception (60_exceptions.md R172). -/
def ExcKind.vector : ExcKind → Nat
  | .ud => 6
  | .nm => 7
  | .ss => 12
  | .gp => 13
  | .pf => 14
  | .ac => 17

/-- The fault outcome: the exception is recorded and nothing else changes, rip still addressing the instruction (R183). What the
hardware does next is not described by the spec (R184), so the next step stops (`Fault.exceptionTaken`; log 7). -/
def State.raise (s : State) (e : Exception) : State := { s with exception := some e }

/-- An exception with no error code: #UD, #NM (60_exceptions.md R172). -/
def Exception.plain (k : ExcKind) : Exception := { kind := k, errorCode := none }

/-- An exception with error code 0: #SS(0), #GP(0), #AC(0) (60_exceptions.md R172). -/
def Exception.zero (k : ExcKind) : Exception := { kind := k, errorCode := some 0 }

/-- #PF(code): CR2 receives the faulting linear address, the only register a faulting execution changes (60_exceptions.md R178). -/
def State.raisePageFault (s : State) (lin : Word64) (code : BitVec 32) : State :=
  { s with exception := some { kind := .pf, errorCode := some code }, cr2 := lin }

end Sys2Proof.Machine
end

