-- ==== Sys2Proof/Machine/Flags.lean ====
section
/-!
DEFINITION. The control and status bits that gate the instruction (10_state.md rules R27 to R33) and the #UD and #NM conditions of
each form (60_exceptions.md rules R173 to R176, R181). The instruction computes and writes no flag (10_state.md rules R27, R28).
-/
namespace Sys2Proof.Machine

/-- CR0.EM (R29). -/
def State.em (s : State) : Bool := s.cr0.getLsbD 2

/-- CR0.TS (R29). -/
def State.ts (s : State) : Bool := s.cr0.getLsbD 3

/-- CR0.AM (R29). -/
def State.am (s : State) : Bool := s.cr0.getLsbD 18

/-- CR0.PG (R29). -/
def State.pg (s : State) : Bool := s.cr0.getLsbD 31

/-- EFLAGS.AC (R27). -/
def State.ac (s : State) : Bool := s.rflags.getLsbD 18

/-- CR4.OSFXSR (R30). -/
def State.osfxsr (s : State) : Bool := s.cr4.getLsbD 9

/-- CR4.OSXSAVE (R30). -/
def State.osxsave (s : State) : Bool := s.cr4.getLsbD 18

/-- Bit `n` of XCR0, which exists only when CPUID reports XSAVE (R31); where it does not, no bit is set (log 34). -/
def State.xcr0Bit (s : State) (n : Nat) : Bool := s.proc.hasXSAVE && s.xcr0.getLsbD n

/-- XCR0[2:1] = 11b (R31). -/
def State.avxState (s : State) : Bool := s.xcr0Bit 1 && s.xcr0Bit 2

/-- XCR0[7:5] = 111b (R31). -/
def State.zmmState (s : State) : Bool := s.xcr0Bit 5 && s.xcr0Bit 6 && s.xcr0Bit 7

/-- CPUID.01H:ECX.OSXSAVE, a copy of CR4.OSXSAVE (R33). -/
def State.cpuidOsxsave (s : State) : Bool := s.osxsave

/-- Alignment checking is enabled: CR0.AM = 1, EFLAGS.AC = 1 and CPL = 3 (20_memory.md R63). -/
def State.alignmentChecking (s : State) : Bool := s.am && s.ac && s.cpl == 3#2

/-- MAXVL / 64, the number of elements a vector register has (00_scope.md R7). -/
def MaxVL.elements : MaxVL → Nat
  | .m128 => 2
  | .m256 => 4
  | .m512 => 8

/-- MAXVL >= VL, which a processor that supports a form of length VL has (00_scope.md R7; log 4). -/
def State.fits (s : State) (vl : VecLen) : Bool := decide (vl.kl ≤ s.proc.maxvl.elements)

/-- Real-address or virtual-8086 mode, where VEX and EVEX forms raise #UD (60_exceptions.md R174, R175, R189). -/
def State.noVexMode (s : State) : Bool := s.mode == .real || s.mode == .v86

/-- Form 1's #UD conditions on the state (60_exceptions.md R173). -/
def State.udLegacy (s : State) : Bool := s.em || !s.osfxsr || !s.proc.hasSSE2

/-- The #UD conditions on the state of forms 2 and 3 (60_exceptions.md R174). -/
def State.udVex (s : State) (vl : VecLen) : Bool :=
  s.noVexMode || !s.osxsave || !s.avxState || !s.proc.hasAVX || !s.fits vl

/-- AVX512VL is needed by forms 4 and 5 (60_exceptions.md R175, 00_scope.md R2). -/
def State.vlMissing (s : State) (vl : VecLen) : Bool :=
  match vl with
  | .v512 => false
  | _ => !s.proc.hasAVX512VL

/-- The #UD conditions on the state of forms 4, 5 and 6 (60_exceptions.md R175). -/
def State.udEvex (s : State) (vl : VecLen) : Bool :=
  s.noVexMode || !s.osxsave || !s.avxState || !s.zmmState || !s.proc.hasAVX512F || s.vlMissing vl || !s.fits vl

/-- #UD, then #NM (60_exceptions.md R176, R181): the exception the state raises before any operand is read. -/
def State.gate (s : State) (ud : Bool) : Option ExcKind :=
  if ud then some .ud else if s.ts then some .nm else none

/-- Form 1's gate. -/
def State.gateLegacy (s : State) : Option ExcKind := s.gate s.udLegacy

/-- The gate of forms 2 and 3. -/
def State.gateVex (s : State) (vl : VecLen) : Option ExcKind := s.gate (s.udVex vl)

/-- The gate of forms 4 to 6. -/
def State.gateEvex (s : State) (vl : VecLen) : Option ExcKind := s.gate (s.udEvex vl)

/-- The gate of a class of forms. -/
def State.gateOf (s : State) : GateClass → Option ExcKind
  | .legacy => s.gateLegacy
  | .vex vl => s.gateVex vl
  | .evex vl => s.gateEvex vl

end Sys2Proof.Machine
end

