-- ==== Sys2Proof/Machine/Operands.lean ====
section
/-!
DEFINITION. The memory operand: effective address, segment, linear address, the checks on it in the order of 60_exceptions.md rule
R181, translation, and the read (20_memory.md rules R50 to R72; 30_encoding.md rules R101 to R107).
-/
namespace Sys2Proof.Machine

/-! ## Effective address (20_memory.md R58; 30_encoding.md R102 to R106) -/

/-- A, the address size in bits (R58): 32 under 67H and outside `Long64`. -/
def State.addrBits (s : State) (p : Prefixes) : Nat :=
  if s.mode = .long64 ∧ p.addr32 = false then 64 else 32

/-- A value modulo 2^A, zero-extended. -/
def narrow (bits : Nat) (a : Word64) : Word64 := if bits = 64 then a else low32 a

/-- R103, R106: the displacement; a one-byte one is multiplied by `n`. -/
def dispValue (n : Nat) : Disp → Word64
  | .none => 0
  | .d8 d => d.signExtend 64 * BitVec.ofNat 64 n
  | .d32 d => d.signExtend 64

/-- R102: index_value * 2^scale, the register narrowed to the address size first; 0 without an index. -/
def State.indexValue (s : State) (bits : Nat) (ix : Index) : Word64 :=
  match ix with
  | none => 0
  | some (r, sc) => narrow bits (s.reg r) <<< sc.toNat

/-- R58: the effective address of a memory operand. `n` is the factor of a one-byte displacement (R106), `len` the length of the
instruction, for the RIP-relative form (R104). -/
def State.effAddr (s : State) (bits n len : Nat) (m : MemOperand) : Word64 :=
  narrow bits <|
    match m with
    | .base b d => narrow bits (s.reg b) + dispValue n d
    | .sib b ix d => narrow bits (s.reg b) + s.indexValue bits ix + dispValue n d
    | .sibNoBase ix d => s.indexValue bits ix + d.signExtend 64
    | .disp32 d =>
      if s.mode = .long64 then s.rip + BitVec.ofNat 64 len + d.signExtend 64 else d.signExtend 64

/-! ## Segment and linear address (30_encoding.md R107; 20_memory.md R59) -/

/-- R107: the default segment, SS when the base register is RSP or RBP (not R12 or R13), else DS. -/
def defaultSeg : MemOperand → SegName
  | .base b _ => if b = 4 ∨ b = 5 then .ss else .ds
  | .sib b _ _ => if b = 4 ∨ b = 5 then .ss else .ds
  | .sibNoBase _ _ => .ds
  | .disp32 _ => .ds

/-- R107: the segment of the operand; in `Long64` only FS and GS overrides count. -/
def State.operandSeg (s : State) (p : Prefixes) (m : MemOperand) : SegName :=
  match p.seg with
  | none => defaultSeg m
  | some .fs => .fs
  | some .gs => .gs
  | some o => if s.mode = .long64 then defaultSeg m else o

/-- R59: the base added to an effective address; 0 for ES, CS, SS and DS in `Long64`. -/
def State.segBase (s : State) (n : SegName) : Word64 :=
  if s.mode = .long64 then
    match n with
    | .fs => (s.segReg .fs).base
    | .gs => (s.segReg .gs).base
    | _ => 0
  else (s.segReg n).base

/-- R59: the linear address of byte `i` of an operand, modulo 2^64 in `Long64` and 2^32 elsewhere. -/
def State.linear (s : State) (n : SegName) (ea : Word64) (i : Nat) : Word64 :=
  let a := s.segBase n + ea + BitVec.ofNat 64 i
  if s.mode = .long64 then a else low32 a

/-! ## Checks (20_memory.md R54, R60 to R63) -/

/-- LinearBits as a number (00_scope.md R8). -/
def LinearBits.bits : LinearBits → Nat
  | .b48 => 48
  | .b57 => 57

/-- R60: bits [63:LinearBits-1] all equal. -/
def State.canonical (s : State) (a : Word64) : Bool :=
  let top := a.sshiftRight (s.proc.linearBits.bits - 1)
  top == 0 || top == BitVec.allOnes 64

/-- R60: does effective address `off` lie within the segment? As the given `SegCheck` says, else by the limit (log 6). -/
def State.withinSegment (s : State) (n : SegName) (off : Nat) : Bool :=
  match s.segRules.find? (fun r => r.seg == n && decide (r.first ≤ off) && decide (off ≤ r.last)) with
  | some r => r.within
  | none => decide (off ≤ (s.segReg n).limit.toNat)

/-- R60: a null selector. PRESUMED: R60 does not say which selectors are null, and the family's are 0 to 3, whatever bits [1:0] hold
(log 42). -/
def SegReg.null (r : SegReg) : Bool := r.selector.extractLsb' 2 14 == 0

/-- R60, `SegCheck` of `Prot32`: a non-null selector (log 42), a readable segment, every byte within the segment (log 6). -/
def State.segCheck (s : State) (n : SegName) (ea : Word64) (size : Nat) : Bool :=
  !(s.segReg n).null && (s.segReg n).readable &&
    (List.range size).all fun i => s.withinSegment n (ea.toNat + i)

/-- R60: the canonical test on every byte in `Long64`, the segment check elsewhere. -/
def State.addressOk (s : State) (n : SegName) (ea : Word64) (size : Nat) : Bool :=
  if s.mode = .long64 then (List.range size).all fun i => s.canonical (s.linear n ea i)
  else s.segCheck n ea size

/-- R61: the error code of a page fault: P, U/S, RSVD and PK; W/R = 0 and I/D = 0. -/
def pfCode (user present rsvd pk : Bool) : BitVec 32 :=
  BitVec.ofNat 32 (present.toNat + 4 * user.toNat + 8 * rsvd.toNat + 32 * pk.toNat)

/-- R61: is paging on? Always in `Long64`. -/
def State.paging (s : State) : Bool := s.mode == .long64 || s.pg

/-- R61, `Translate(linear, DataRead, cpl)`: the physical address, or the error code of the page fault (log 5). -/
def State.translate (s : State) (a : Word64) : Except (BitVec 32) Nat :=
  if s.paging then
    match s.pages.find? (fun r => r.page == a.toNat / Config.pageBytes) with
    | none => .ok a.toNat
    | some r =>
      match if s.cpl = 3 then r.user else r.supervisor with
      | .frame f => .ok (f * Config.pageBytes + a.toNat % Config.pageBytes)
      | .fault present rsvd pk => .error (pfCode (decide (s.cpl = 3)) present rsvd pk)
  else .ok a.toNat

/-- What kind of memory operand a form has: form 1's aligned one (R54), a full-width one of forms 2 to 6 (R57), or the 8-byte
broadcast element (R63). -/
inductive OperandKind where
  | legacy
  | full
  | broadcast
deriving DecidableEq, Repr

/-- R54: form 1's operand must start at a multiple of 16, on the linear address (90_conflicts.md C7). -/
def misaligned16 (k : OperandKind) (lin : Word64) : Bool :=
  match k with
  | .legacy => lin.extractLsb' 0 4 != 0#4
  | _ => false

/-- R60, R177: #SS when the segment is SS, else #GP. -/
def segFault (n : SegName) : ExcKind := if n = .ss then .ss else .gp

/-- 60_exceptions.md R177, R181 item 5: alignment of form 1 and the address checks; through SS, when both fail, either of #GP(0) and
#SS(0) (D13, a free value). -/
def State.addressStop (s : State) (k : OperandKind) (n : SegName) (ea : Word64) (size : Nat) : Option Stop :=
  match misaligned16 k (s.linear n ea 0), s.addressOk n ea size with
  | false, true => none
  | true, true => some (.next (s.raise (.zero .gp)))
  | false, false => some (.next (s.raise (.zero (segFault n))))
  | true, false =>
    if n = .ss then
      some (.next (s.draw.raise (.zero (if Config.alignmentFirst s.draws then .gp else .ss))))
    else some (.next (s.raise (.zero .gp)))

/-- The bytes of the operand whose page faults: linear address and error code (R61). -/
def State.faultingBytes (s : State) (n : SegName) (ea : Word64) (size : Nat) : List (Word64 × BitVec 32) :=
  (List.range size).filterMap fun i =>
    match s.translate (s.linear n ea i) with
    | .ok _ => none
    | .error code => some (s.linear n ea i, code)

/-- 60_exceptions.md R178, R182: one #PF, for any one of the faulting bytes (D20, a free value). -/
def State.pageStop (s : State) (n : SegName) (ea : Word64) (size : Nat) : Option Stop :=
  match s.faultingBytes n ea size with
  | [] => none
  | f :: fs =>
    let pick := ((f :: fs)[Config.reportedByte s.draws % (f :: fs).length]?).getD f
    some (.next (s.draw.raisePageFault pick.1 pick.2))

/-- 20_memory.md R63, 60_exceptions.md R179, D6: alignment checking. -/
def State.alignmentStop (s : State) (k : OperandKind) (lin : Word64) (size : Nat) : Option Stop :=
  if s.alignmentChecking && decide (lin.toNat % size ≠ 0) then
    match k with
    | .legacy => none
    | .full => some (.fault .alignmentUnknown)
    | .broadcast => some (.next (s.raise (.zero .ac)))
  else none

/-- The physical address of a byte whose page does not fault. -/
def State.physical (s : State) (a : Word64) : Nat :=
  match s.translate a with
  | .ok pa => pa
  | .error _ => 0

/-- The first byte of the operand that this execution reads: form 1 may fetch only the upper 8 of its 16 bytes (R55, a free
value; log 8). -/
def State.firstRead (s : State) (k : OperandKind) : Nat :=
  match k with
  | .legacy => if Config.legacyPartialFetch s.draws then 8 else 0
  | _ => 0

/-- R70, R71: an operand that touches a device region (D15), or a read of an address memory does not hold (D16), is refused. -/
def State.storageStop (s : State) (k : OperandKind) (n : SegName) (ea : Word64) (size : Nat) : Option Stop :=
  if (List.range size).any (fun i => s.isDevice (s.physical (s.linear n ea i))) then some (.refused .deviceMemory)
  else if (List.range size).any (fun i =>
      (Memory.read s.mem (s.physical (s.linear n ea i))).isNone && decide (s.firstRead k ≤ i)) then
    some (.refused .memoryAbsent)
  else none

/-- R58, D24: an operand that runs past the top of the effective-address space. -/
def pastTop (bits : Nat) (ea : Word64) (size : Nat) : Bool := decide (2 ^ bits < ea.toNat + size)

/-- Every stop of a memory operand, in the order of 60_exceptions.md R181 (log 15): `none` when it can be read. -/
def State.operandStop (s : State) (k : OperandKind) (bits : Nat) (n : SegName) (ea : Word64) (size : Nat) : Option Stop :=
  if pastTop bits ea size then some (.refused .operandPastTop)
  else
    (s.addressStop k n ea size).orElse fun _ =>
      (s.pageStop n ea size).orElse fun _ =>
        (s.alignmentStop k (s.linear n ea 0) size).orElse fun _ =>
          s.storageStop k n ea size

/-- R66: the read oracle's own answer for the byte at linear address `a` in the load that comes next. -/
def State.oracleAnswer (s : State) (a : Word64) : Option Byte :=
  (s.oracle.find? fun r => r.load == s.reads.length && r.addr == a).map OracleAnswer.value

/-- R66: the byte at linear address `a`, as the read oracle answers; memory's byte with no other writer. `none` where memory holds
none (R71). -/
def State.readByte (s : State) (a : Word64) : Option Byte :=
  (Memory.read s.mem (s.physical a)).map fun b => (s.oracleAnswer a).getD b

/-- The bytes of an operand that `operandStop` passes (R51, R53). A byte below `firstRead` that memory does not hold is not read and
reaches no result (R55, R131); 0 stands for it. -/
def State.operandBytes (s : State) (n : SegName) (ea : Word64) (size : Nat) : List Byte :=
  (List.range size).map fun i => (s.readByte (s.linear n ea i)).getD 0

/-- The byte reads of an operand (R64, R66): for form 1 of all 16 bytes or of the upper 8 (R55, a free value). -/
def State.loadOf (s : State) (k : OperandKind) (n : SegName) (ea : Word64) (size : Nat) : Load :=
  (List.range (size - s.firstRead k)).map fun i =>
    { addr := s.linear n ea (s.firstRead k + i), value := (s.readByte (s.linear n ea (s.firstRead k + i))).getD 0 }

/-- The state with an operand's byte reads recorded (R66); form 1's takes a free choice (R55). -/
def State.noteRead (s : State) (k : OperandKind) (n : SegName) (ea : Word64) (size : Nat) : State :=
  match k with
  | .legacy => s.draw.recordRead (s.loadOf k n ea size)
  | _ => s.recordRead (s.loadOf k n ea size)

/-- A memory operand with its address resolved. -/
structure Located where
  bits : Nat
  seg : SegName
  ea : Word64
deriving DecidableEq, Repr

/-- R58, R107: where a memory operand lies. `n` is the factor of a one-byte displacement. -/
def State.locate (s : State) (p : Prefixes) (n len : Nat) (m : MemOperand) : Located :=
  { bits := s.addrBits p, seg := s.operandSeg p m, ea := s.effAddr (s.addrBits p) n len m }

/-- Reads `size` bytes of a memory operand as vector elements, with the state that records the read, or stops. In real-address and
virtual-8086 mode the address is refused (D2). -/
def State.readMem (s : State) (k : OperandKind) (size : Nat) (l : Located) : Except Stop (VecReg × State) :=
  if s.noVexMode then .error (.refused .addr16)
  else
    match s.operandStop k l.bits l.seg l.ea size with
    | some o => .error o
    | none => .ok (bytesToVec (s.operandBytes l.seg l.ea size), s.noteRead k l.seg l.ea size)

/-- The second source of form 1 (40_unpckhpd_sse_vex.md R131). -/
def State.src2Legacy (s : State) (p : Prefixes) (len : Nat) (o : RegMem) : Except Stop (VecReg × State) :=
  match o with
  | .reg r => .ok (s.vec r, s)
  | .mem m => s.readMem .legacy 16 (s.locate p 1 len m)

/-- The second source of forms 2 and 3 (40_unpckhpd_sse_vex.md R132, R133). -/
def State.src2Vex (s : State) (vl : VecLen) (p : Prefixes) (len : Nat) (o : RegMem) : Except Stop (VecReg × State) :=
  match o with
  | .reg r => .ok (s.vec r, s)
  | .mem m => s.readMem .full vl.bytes (s.locate p 1 len m)

/-- `Src2(VL)` of forms 4 to 6 (41_vunpckhpd_evex.md R150); N is the size of the operand (30_encoding.md R106). -/
def State.src2Evex (s : State) (vl : VecLen) (p : Prefixes) (len : Nat) (o : RegMemBcst) :
    Except Stop (VecReg × State) :=
  match o with
  | .reg r => .ok (s.vec r, s)
  | .mem m => s.readMem .full vl.bytes (s.locate p vl.bytes len m)
  | .bcst m =>
    match s.readMem .broadcast 8 (s.locate p 8 len m) with
    | .error e => .error e
    | .ok (v, s') => .ok (broadcast vl v[0], s')

/-- The order of one execution (40_unpckhpd_sse_vex.md R136): the gate, then the second source, then the write and the advance,
which `finish` makes of the second source and the state that has recorded its read. -/
def State.run (s : State) (gate : Option ExcKind) (src2 : Except Stop (VecReg × State)) (finish : VecReg → State → State) :
    Stop :=
  if s.mode = .prot16 then .refused .mode16
  else
    match gate with
    | some k => .next (s.raise (.plain k))
    | none =>
      match src2 with
      | .error o => o
      | .ok (b, s') => .next (finish b s')

end Sys2Proof.Machine
end

