-- ==== Sys2Proof/Machine/Evex.lean ====
section
/-!
DEFINITION. Forms 4, 5 and 6, VUNPCKHPD with an EVEX prefix: writemask, zeroing and broadcast (41_vunpckhpd_evex.md rules R150 to
R159).
-/
namespace Sys2Proof.Machine

/-- R151 to R154: the interleaved value goes to the destination under the writemask, bits [MAXVL-1:VL] are zeroed. -/
def State.finishEvex (s : State) (vl : VecLen) (len : Nat) (dest : BitVec 5) (mask : Mask) (src1 : BitVec 5) (c : VecReg) :
    State :=
  (s.setVec dest (maskWrite vl mask s.opmask (interleaveHigh vl (s.vec src1) c) (s.vec dest))).advance len

/-- R152 to R154 as one execution. -/
def State.vunpckhpdEvex (s : State) (vl : VecLen) (len : Nat) (p : Prefixes) (dest : BitVec 5) (mask : Mask)
    (src1 : BitVec 5) (src2 : RegMemBcst) : Stop :=
  s.run (s.gateEvex vl) (s.src2Evex vl p len src2) fun c t => t.finishEvex vl len dest mask src1 c

/-- Form 4 (R152). -/
def execVunpckhpdEvex128 (p : Prefixes) (dest : BitVec 5) (mask : Mask) (src1 : BitVec 5) (src2 : RegMemBcst) (s : State) :
    Stop :=
  s.vunpckhpdEvex .v128 (Instr.vunpckhpdEvex128 p dest mask src1 src2).length p dest mask src1 src2

/-- Form 5 (R153). -/
def execVunpckhpdEvex256 (p : Prefixes) (dest : BitVec 5) (mask : Mask) (src1 : BitVec 5) (src2 : RegMemBcst) (s : State) :
    Stop :=
  s.vunpckhpdEvex .v256 (Instr.vunpckhpdEvex256 p dest mask src1 src2).length p dest mask src1 src2

/-- Form 6 (R154). -/
def execVunpckhpdEvex512 (p : Prefixes) (dest : BitVec 5) (mask : Mask) (src1 : BitVec 5) (src2 : RegMemBcst) (s : State) :
    Stop :=
  s.vunpckhpdEvex .v512 (Instr.vunpckhpdEvex512 p dest mask src1 src2).length p dest mask src1 src2

end Sys2Proof.Machine
end

