-- ==== Sys2Proof/Machine/LegacySse.lean ====
section
/-!
DEFINITION. Form 1, UNPCKHPD xmm1, xmm2/m128 (40_unpckhpd_sse_vex.md rule R131), with and without a REX byte.
-/
namespace Sys2Proof.Machine

/-- R131: the old destination is the first source; bits [127:0] receive the interleaved value, bits [MAXVL-1:128] are unmodified. -/
def State.finishLegacy (s : State) (len : Nat) (dest : BitVec 5) (b : VecReg) : State :=
  (s.setVec dest (keepUpper (interleaveHigh .v128 (s.vec dest) b) (s.vec dest))).advance len

/-- R131 as one execution. -/
def State.unpckhpdLegacy (s : State) (len : Nat) (p : Prefixes) (dest : BitVec 5) (src2 : RegMem) : Stop :=
  s.run s.gateLegacy (s.src2Legacy p len src2) fun b t => t.finishLegacy len dest b

/-- Form 1 without REX (R131). -/
def execUnpckhpd (p : Prefixes) (dest : BitVec 5) (src2 : RegMem) (s : State) : Stop :=
  s.unpckhpdLegacy (Instr.unpckhpd p dest src2).length p dest src2

/-- Form 1 with REX (R131, 30_encoding.md R83). -/
def execUnpckhpdRex (p : Prefixes) (dest : BitVec 5) (src2 : RegMem) (s : State) : Stop :=
  s.unpckhpdLegacy (Instr.unpckhpdRex p dest src2).length p dest src2

end Sys2Proof.Machine
end

