-- ==== Sys2Proof/Machine/Vex.lean ====
section
/-!
DEFINITION. Forms 2 and 3, VUNPCKHPD with a VEX prefix (40_unpckhpd_sse_vex.md rules R132, R133), each with a two-byte and a
three-byte prefix.
-/
namespace Sys2Proof.Machine

/-- R132, R133: the destination receives the interleaved value, bits [MAXVL-1:VL] are zeroed. -/
def State.finishVex (s : State) (vl : VecLen) (len : Nat) (dest src1 : BitVec 5) (b : VecReg) : State :=
  (s.setVec dest (zeroUpper vl (interleaveHigh vl (s.vec src1) b))).advance len

/-- R132, R133 as one execution. -/
def State.vunpckhpdVex (s : State) (vl : VecLen) (len : Nat) (p : Prefixes) (dest src1 : BitVec 5) (src2 : RegMem) : Stop :=
  s.run (s.gateVex vl) (s.src2Vex vl p len src2) fun b t => t.finishVex vl len dest src1 b

/-- Form 2, two-byte prefix (R132). -/
def execVunpckhpd128C5 (p : Prefixes) (dest src1 : BitVec 5) (src2 : RegMem) (s : State) : Stop :=
  s.vunpckhpdVex .v128 (Instr.vunpckhpd128C5 p dest src1 src2).length p dest src1 src2

/-- Form 2, three-byte prefix (R132). -/
def execVunpckhpd128C4 (p : Prefixes) (dest src1 : BitVec 5) (src2 : RegMem) (s : State) : Stop :=
  s.vunpckhpdVex .v128 (Instr.vunpckhpd128C4 p dest src1 src2).length p dest src1 src2

/-- Form 3, two-byte prefix (R133). -/
def execVunpckhpd256C5 (p : Prefixes) (dest src1 : BitVec 5) (src2 : RegMem) (s : State) : Stop :=
  s.vunpckhpdVex .v256 (Instr.vunpckhpd256C5 p dest src1 src2).length p dest src1 src2

/-- Form 3, three-byte prefix (R133). -/
def execVunpckhpd256C4 (p : Prefixes) (dest src1 : BitVec 5) (src2 : RegMem) (s : State) : Stop :=
  s.vunpckhpdVex .v256 (Instr.vunpckhpd256C4 p dest src1 src2).length p dest src1 src2

end Sys2Proof.Machine
end

