-- ==== Sys2Proof/Machine/Dispatch.lean ====
section
/-!
DEFINITION. The dispatch: one arm per constructor of Instr, each one call of the instruction's own meaning.
-/
namespace Sys2Proof.Machine

def exec (i : Instr) (s : State) : Host.Outcome State Fault Refusal :=
  match i with
  | .unpckhpd p dest src2 => Sys2Proof.Machine.execUnpckhpd p dest src2 s
  | .unpckhpdRex p dest src2 => Sys2Proof.Machine.execUnpckhpdRex p dest src2 s
  | .vunpckhpd128C5 p dest src1 src2 => Sys2Proof.Machine.execVunpckhpd128C5 p dest src1 src2 s
  | .vunpckhpd128C4 p dest src1 src2 => Sys2Proof.Machine.execVunpckhpd128C4 p dest src1 src2 s
  | .vunpckhpd256C5 p dest src1 src2 => Sys2Proof.Machine.execVunpckhpd256C5 p dest src1 src2 s
  | .vunpckhpd256C4 p dest src1 src2 => Sys2Proof.Machine.execVunpckhpd256C4 p dest src1 src2 s
  | .vunpckhpdEvex128 p dest mask src1 src2 => Sys2Proof.Machine.execVunpckhpdEvex128 p dest mask src1 src2 s
  | .vunpckhpdEvex256 p dest mask src1 src2 => Sys2Proof.Machine.execVunpckhpdEvex256 p dest mask src1 src2 s
  | .vunpckhpdEvex512 p dest mask src1 src2 => Sys2Proof.Machine.execVunpckhpdEvex512 p dest mask src1 src2 s

end Sys2Proof.Machine
end

