-- ==== Sys2Proof/Machine/Fetch.lean ====
section
/-!
DEFINITION. Fetching the instruction's bytes (10_state.md rule R25, 92_eei_decisions.md D9; 20_memory.md rule R69), decoding them in
the state's mode, and what a rejected byte string makes of the state (60_exceptions.md rules R173 to R175, R180, R181).
-/
namespace Sys2Proof.Machine

/-- The linear address of instruction byte `i`, where it is canonical and does not wrap (D9): rip in `Long64`, CS base plus eip
elsewhere (log 26). -/
def State.fetchLinear (s : State) (i : Nat) : Option Word64 :=
  if s.mode = .long64 then
    let a := s.rip + BitVec.ofNat 64 i
    if s.rip.toNat + i < 2 ^ 64 ∧ s.canonical a = true then some a else none
  else
    let a := (low32 (s.segReg .cs).base).toNat + (low32 s.rip).toNat + i
    if a < 2 ^ 32 then some (BitVec.ofNat 64 a) else none

/-- D14: does the read oracle tell of another agent's write at a physical address? Program text there is refused. -/
def State.writtenByOthers (s : State) (pa : Nat) : Bool :=
  s.oracle.any fun r =>
    match s.translate r.addr with
    | .ok q => q == pa
    | .error _ => false

/-- Instruction byte `i`, read from the one memory (R69); `none` where it cannot be fetched. -/
def State.fetchByte (s : State) (i : Nat) : Option Byte :=
  match s.fetchLinear i with
  | none => none
  | some a =>
    match s.translate a with
    | .error _ => none
    | .ok pa => if s.isDevice pa || s.writtenByOthers pa then none else Memory.read s.mem pa

/-- Up to `n` instruction bytes from byte `i` on, ending before the first that cannot be fetched. -/
def State.fetchFrom (s : State) : Nat → Nat → List Byte
  | 0, _ => []
  | n + 1, i =>
    match s.fetchByte i with
    | some b => b :: s.fetchFrom n (i + 1)
    | none => []

/-- The bytes at the instruction pointer, at most 15. -/
def State.fetchBytes (s : State) : List Byte := s.fetchFrom Config.maxInstrBytes 0

/-- The instruction at the instruction pointer. -/
def State.fetchInstr (s : State) : Except Reject Instr :=
  match decode s.mode s.fetchBytes with
  | .ok (i, _) => .ok i
  | .error e => .error e

/-- The refusal of an encoding of a form. -/
def refusalOf : Unmodelled → Refusal
  | .addr16 => .addr16
  | .segOverrides => .segOverrides
  | .addrSizeRepeated => .addrSizeRepeated
  | .rexRepeated => .rexRepeated
  | .evexBits32 => .evexBits32

/-- What the machine does with bytes that are no instruction of the model: #UD and #GP(0) are raised, everything else is
refused by name, an encoding of a form after the form's #UD and #NM conditions (log 18). -/
def State.rejected (s : State) (r : Reject) : Stop :=
  match r with
  | .invalidOpcode => .next (s.raise (.plain .ud))
  | .tooLong => .next (s.raise (.zero .gp))
  | .truncated => .refused .fetchUnavailable
  | .otherInstruction => .refused .otherInstruction
  | .mode16 => .refused .mode16
  | .refusedForm g w => s.run (s.gateOf g) (.error (.refused (refusalOf w))) fun _ t => t

end Sys2Proof.Machine
end

