-- ==== Sys2Proof/Machine/Step.lean ====
section
/-!
DEFINITION. One step (40_unpckhpd_sse_vex.md rule R136): a raised exception is sticky (92_eei_decisions.md D11); otherwise the
instruction at rip is fetched, decoded and executed. Then the placing of one instruction word for the host's probe.
-/
namespace Sys2Proof.Machine

/-- One step. -/
def step (s : State) : Host.Outcome State Fault Refusal :=
  match s.exception with
  | some e => .fault (.exceptionTaken e)
  | none =>
    match s.fetchInstr with
    | .ok i => exec i s
    | .error r => s.rejected r

/-- Puts instruction bytes into memory from instruction byte `i` on, where the fetch looks for them. -/
def State.placeCode (s : State) : Nat → List Byte → State
  | _, [] => s
  | i, b :: bs =>
    match s.fetchLinear i with
    | none => s.placeCode (i + 1) bs
    | some a => { s with mem := Memory.write s.mem (s.physical a) b }.placeCode (i + 1) bs

/-- `Long64` with no exception raised, as a launch state of the spec has them (10_state.md R32, R37; log 29): CR0.PE and CR0.PG,
EFER.LMA and CS.L are set, nothing else changes. -/
def State.toLong64 (s : State) : State :=
  { s with
    cr0 := s.cr0 ||| 0x80000001
    efer := s.efer ||| 0x400
    seg := s.seg.set 1 { s.segReg .cs with long := true }
    exception := none }

/-- `s` launched in `Long64`, the one mode in which all nine rows exist, with a table word's instruction where the next step fetches
(log 29). -/
def State.withFetchWord (s : State) (nbits w : Nat) : State :=
  s.toLong64.placeCode 0 (tableBytes nbits w)

end Sys2Proof.Machine
end

