-- ==== Sys2Proof/WellFormed.lean ====
section
/-!
DEFINITION. Which instruction terms an encoding of a mode exists for (10_state.md rule R21; 30_encoding.md rules R83, R89, R95,
R96, R98, R101, R102, R108). The step function never sees another: `decode` gives well-formed terms only.
-/
namespace Sys2Proof

/-- R101, R102: a base register whose low bits are 101b needs a displacement. -/
def dispOk (b : BitVec 4) (d : Disp) : Bool := !(d == .none && low3 b == 5#3)

/-- R102: an index register is below `bound` and is not RSP (0100b means no index). -/
def indexOk (bound : Nat) (ix : Index) : Bool :=
  match ix with
  | none => true
  | some (r, _) => decide (r.toNat < bound) && r != 4#4

/-- R101, R102: a memory operand that ModRM and SIB can spell, its registers below `bound`. -/
def MemOperand.wellFormed (bound : Nat) : MemOperand → Bool
  | .base b d => decide (b.toNat < bound) && low3 b != 4#3 && dispOk b d
  | .sib b ix d => decide (b.toNat < bound) && indexOk bound ix && dispOk b d
  | .sibNoBase ix _ => indexOk bound ix
  | .disp32 _ => true

/-- An operand of forms 1 to 3: register number below `bound`, no memory operand where addresses have 16 bits (D2). -/
def RegMem.wellFormed (wide : Bool) (bound : Nat) : RegMem → Bool
  | .reg r => decide (r.toNat < bound)
  | .mem m => wide && m.wellFormed bound

/-- An operand of forms 4 to 6: vector register below `vbound`, general registers below `gbound`. -/
def RegMemBcst.wellFormed (vbound gbound : Nat) : RegMemBcst → Bool
  | .reg r => decide (r.toNat < vbound)
  | .mem m => m.wellFormed gbound
  | .bcst m => m.wellFormed gbound

/-- R96, R98: a writemask register is k1..k7. -/
def Mask.wellFormed : Mask → Bool
  | .none => true
  | .merge k => k != 0#3
  | .zero k => k != 0#3

/-- The modes whose memory operands the model addresses. -/
def Mode.wide (m : Mode) : Bool := m == .long64 || m == .prot32

/-- R84, D2: 67H only in `Long64`. -/
def Prefixes.addrOk (m : Mode) (p : Prefixes) : Bool := !p.addr32 || m == .long64

/-- R80: VEX and EVEX forms carry no redundant 66H or REX byte. -/
def Prefixes.vexOk (m : Mode) (p : Prefixes) : Bool := p.addrOk m && p.redundant == 0

/-- R21: a bound on register numbers that only `Long64` reaches beyond 8. -/
def Mode.bound (m : Mode) (n : Nat) : Nat := if m = .long64 then n else 8

/-- The rows of forms 2 and 3: `bound` is what the prefix form can name in the r/m operand. -/
def vexWellFormed (m : Mode) (bound : Nat) (p : Prefixes) (dest src1 : BitVec 5) (s : RegMem) : Bool :=
  m.wide && p.vexOk m && decide (dest.toNat < m.bound 16) && decide (src1.toNat < m.bound 16) &&
    s.wellFormed true (m.bound bound)

/-- The rows of forms 4 to 6. -/
def evexWellFormed (m : Mode) (p : Prefixes) (dest : BitVec 5) (k : Mask) (src1 : BitVec 5) (s : RegMemBcst) : Bool :=
  m.wide && p.vexOk m && decide (dest.toNat < m.bound 32) && k.wellFormed && decide (src1.toNat < m.bound 32) &&
    s.wellFormed (m.bound 32) (m.bound 16)

/-- The fields of a term are ones its row can spell in mode `m`. -/
def Instr.fieldsOk (m : Mode) : Instr → Bool
  | .unpckhpd p d s => m != .prot16 && p.addrOk m && decide (d.toNat < 8) && s.wellFormed m.wide 8
  | .unpckhpdRex p d s => m == .long64 && decide (d.toNat < 16) && p.addrOk m && s.wellFormed true 16
  | .vunpckhpd128C5 p d s1 s => vexWellFormed m 8 p d s1 s
  | .vunpckhpd128C4 p d s1 s => vexWellFormed m 16 p d s1 s
  | .vunpckhpd256C5 p d s1 s => vexWellFormed m 8 p d s1 s
  | .vunpckhpd256C4 p d s1 s => vexWellFormed m 16 p d s1 s
  | .vunpckhpdEvex128 p d k s1 s => evexWellFormed m p d k s1 s
  | .vunpckhpdEvex256 p d k s1 s => evexWellFormed m p d k s1 s
  | .vunpckhpdEvex512 p d k s1 s => evexWellFormed m p d k s1 s

/-- A well-formed instruction of mode `m`: its fields can be spelled and it has at most 15 bytes (R180). -/
def Instr.wellFormed (m : Mode) (i : Instr) : Bool :=
  i.fieldsOk m && decide (i.length ≤ Config.maxInstrBytes)

end Sys2Proof
end

