-- ==== Sys2Proof/Safety.lean ====
section
/-!
DEFINITION. The terms claims are stated in: when a form executes normally (60_exceptions.md rules R173 to R176), what an operand in
memory holds (20_memory.md rules R51, R53, R60, R61), what a completed execution may change (10_state.md rule R34), and the
invariant of the machine.
-/
namespace Sys2Proof

/-! ## What the rows name (00_scope.md R2; 20_memory.md R51; 30_encoding.md R106, R109) -/

/-- The legacy prefixes of an instruction. -/
def Instr.pfx : Instr → Prefixes
  | .unpckhpd p _ _ | .unpckhpdRex p _ _ => p
  | .vunpckhpd128C5 p _ _ _ | .vunpckhpd128C4 p _ _ _ | .vunpckhpd256C5 p _ _ _ | .vunpckhpd256C4 p _ _ _ => p
  | .vunpckhpdEvex128 p _ _ _ _ | .vunpckhpdEvex256 p _ _ _ _ | .vunpckhpdEvex512 p _ _ _ _ => p

/-- The destination register, operand 1 (30_encoding.md R109). -/
def Instr.dest : Instr → BitVec 5
  | .unpckhpd _ d _ | .unpckhpdRex _ d _ => d
  | .vunpckhpd128C5 _ d _ _ | .vunpckhpd128C4 _ d _ _ | .vunpckhpd256C5 _ d _ _ | .vunpckhpd256C4 _ d _ _ => d
  | .vunpckhpdEvex128 _ d _ _ _ | .vunpckhpdEvex256 _ d _ _ _ | .vunpckhpdEvex512 _ d _ _ _ => d

/-- A memory operand as its form sees it: the kind of access, its size in bytes (20_memory.md R51), the factor N of a one-byte
displacement (30_encoding.md R106) and the address fields. -/
structure MemAccess where
  kind : Machine.OperandKind
  size : Nat
  factor : Nat
  mem : MemOperand
deriving DecidableEq, Repr

/-- The memory operand of forms 1 to 3, if the second source is one. -/
def memOfRegMem (k : Machine.OperandKind) (size : Nat) : RegMem → Option MemAccess
  | .reg _ => none
  | .mem m => some { kind := k, size := size, factor := 1, mem := m }

/-- The memory operand of forms 4 to 6, if the second source is one. -/
def memOfBcst (size : Nat) : RegMemBcst → Option MemAccess
  | .reg _ => none
  | .mem m => some { kind := .full, size := size, factor := size, mem := m }
  | .bcst m => some { kind := .broadcast, size := 8, factor := 8, mem := m }

/-- The memory operand of an instruction: `none` for a register second source. -/
def Instr.memAccess : Instr → Option MemAccess
  | .unpckhpd _ _ o | .unpckhpdRex _ _ o => memOfRegMem .legacy 16 o
  | .vunpckhpd128C5 _ _ _ o | .vunpckhpd128C4 _ _ _ o => memOfRegMem .full 16 o
  | .vunpckhpd256C5 _ _ _ o | .vunpckhpd256C4 _ _ _ o => memOfRegMem .full 32 o
  | .vunpckhpdEvex128 _ _ _ _ o => memOfBcst 16 o
  | .vunpckhpdEvex256 _ _ _ _ o => memOfBcst 32 o
  | .vunpckhpdEvex512 _ _ _ _ o => memOfBcst 64 o

end Sys2Proof

namespace Sys2Proof.Machine

/-! ## When a form executes normally -/

/-- What a processor is (92_eei_decisions.md D1, D3; 00_scope.md R7): AVX512VL implies AVX512F implies AVX implies SSE2, MAXVL is 512 with
AVX512F and at least 256 with AVX. -/
def Processor.ok (c : Processor) : Bool :=
  (!c.hasAVX512VL || c.hasAVX512F) && (!c.hasAVX512F || (c.hasAVX && c.maxvl == .m512)) &&
    (!c.hasAVX || (c.hasSSE2 && c.maxvl != .m128))

/-- Nothing of the state makes form 1 raise #UD (R173), in a mode the model covers for it. -/
structure State.LegacyAllowed (s : State) : Prop where
  mode : s.mode ≠ .prot16
  em : s.em = false
  osfxsr : s.osfxsr = true
  sse2 : s.proc.hasSSE2 = true

/-- Nothing of the state makes forms 2 and 3 raise #UD (R174); XCR0 exists (R31). -/
structure State.VexAllowed (s : State) : Prop where
  mode : s.mode = .long64 ∨ s.mode = .prot32
  osxsave : s.osxsave = true
  xcr0 : s.xcr0.extractLsb' 1 2 = 3#2
  xsave : s.proc.hasXSAVE = true
  avx : s.proc.hasAVX = true
  proc : s.proc.ok = true

/-- Nothing of the state makes forms 4 to 6 raise #UD (R175); forms 4 and 5 need AVX512VL as well; XCR0 exists (R31). -/
structure State.EvexAllowed (s : State) (vl : VecLen) : Prop where
  mode : s.mode = .long64 ∨ s.mode = .prot32
  osxsave : s.osxsave = true
  xcr0 : s.xcr0.extractLsb' 1 2 = 3#2
  xsave : s.proc.hasXSAVE = true
  xcr0Upper : s.xcr0.extractLsb' 5 3 = 7#3
  avx512f : s.proc.hasAVX512F = true
  avx512vl : vl ≠ .v512 → s.proc.hasAVX512VL = true
  proc : s.proc.ok = true

/-! ## Instructions whose state allows them; their operands -/

/-- No #UD condition of the state holds for the instruction (60_exceptions.md R173 to R175). -/
def State.Allowed (s : State) : Instr → Prop
  | .unpckhpd .. | .unpckhpdRex .. => s.LegacyAllowed
  | .vunpckhpd128C5 .. | .vunpckhpd128C4 .. | .vunpckhpd256C5 .. | .vunpckhpd256C4 .. => s.VexAllowed
  | .vunpckhpdEvex128 .. => s.EvexAllowed .v128
  | .vunpckhpdEvex256 .. => s.EvexAllowed .v256
  | .vunpckhpdEvex512 .. => s.EvexAllowed .v512

/-- Where the memory operand `a` of instruction `i` lies. -/
def State.operandOf (s : State) (i : Instr) (a : MemAccess) : Located := s.locate i.pfx a.factor i.length a.mem

/-! ## An operand in memory -/

/-- The eight bytes at offset `off` of an operand are mapped, lie in ordinary memory, and read as `w`, least significant byte first
(20_memory.md R53, R61, R66, R70, R71). -/
def State.HoldsWord (s : State) (n : SegName) (ea : Word64) (off : Nat) (w : Word64) : Prop :=
  ∀ i < 8, (∃ pa, s.translate (s.linear n ea (off + i)) = .ok pa ∧ s.isDevice pa = false) ∧
    s.readByte (s.linear n ea (off + i)) = some (w.extractLsb' (8 * i) 8)

/-- The byte reads of bytes `first` to `size - 1` of the operand at `l`, of elements `v` (20_memory.md R53, R66). -/
def State.loadEvents (s : State) (l : Located) (first size : Nat) (v : Nat → Word64) : Load :=
  (List.range (size - first)).map fun i =>
    { addr := s.linear l.seg l.ea (first + i), value := (v ((first + i) / 8)).extractLsb' (8 * ((first + i) % 8)) 8 }

/-- The bytes of the operand at `l`, `size` of them, are within the effective-address space and pass the canonical or segment check
(20_memory.md R58, R60), in a mode whose addresses the model forms. -/
structure State.Addressable (s : State) (l : Located) (size : Nat) : Prop where
  mode : s.mode = .long64 ∨ s.mode = .prot32
  top : l.ea.toNat + size ≤ 2 ^ l.bits
  address : s.addressOk l.seg l.ea size = true

/-- The alignment a kind of operand needs: 16 for form 1 (20_memory.md R54); its own size for the others, when alignment checking is
enabled (R63). -/
def State.Aligned (s : State) (k : OperandKind) (l : Located) (size : Nat) : Prop :=
  match k with
  | .legacy => (s.linear l.seg l.ea 0).toNat % 16 = 0
  | _ => s.alignmentChecking = true → (s.linear l.seg l.ea 0).toNat % size = 0

/-- The operand of `words` 64-bit elements can be read, and element `q` of it is `v q`. -/
structure State.Readable (s : State) (k : OperandKind) (l : Located) (words : Nat) (v : Nat → Word64) : Prop where
  addressable : s.Addressable l (8 * words)
  aligned : s.Aligned k l (8 * words)
  holds : ∀ q < words, s.HoldsWord l.seg l.ea (8 * q) (v q)

/-! ## What may change -/

/-- rip after a completed instruction of `len` bytes (10_state.md R25). -/
def State.nextRip (s : State) (len : Nat) : Word64 :=
  if s.mode = .long64 then s.rip + BitVec.ofNat 64 len else low32 (s.rip + BitVec.ofNat 64 len)

/-- `t` is `s` after a completed instruction of `len` bytes with destination `d` and no memory operand: only vector register `d`
and rip may differ (10_state.md R34). -/
def State.WroteOnly (s t : State) (d : BitVec 5) (len : Nat) : Prop :=
  t = { s with zmm := s.zmm.set d.toNat (t.vec d) d.isLt, rip := s.nextRip len }

/-- The same with one operand's byte reads recorded: the model's own fields `reads` and `draws` may differ as well. -/
def State.WroteAndRead (s t : State) (d : BitVec 5) (len : Nat) (e : Load) : Prop :=
  t = { s with zmm := s.zmm.set d.toNat (t.vec d) d.isLt, rip := s.nextRip len, reads := s.reads ++ [e], draws := t.draws }

/-- `t` is `s` with the exception `e` raised and nothing else changed (60_exceptions.md R183). -/
def State.RaisedOnly (s t : State) (e : Exception) : Prop := t = { s with exception := some e }

/-- A displacement as an integer (30_encoding.md R103, R106). -/
def dispInt (n : Nat) : Disp → Int
  | .none => 0
  | .d8 d => d.toInt * n
  | .d32 d => d.toInt

/-- index_value * 2^scale before it is reduced (30_encoding.md R102). -/
def State.indexNat (s : State) (ix : Index) : Nat :=
  match ix with
  | none => 0
  | some (x, sc) => (s.reg x).toNat * 2 ^ sc.toNat

/-- Element `j` of the interleaved value (40_unpckhpd_sse_vex.md R130): even elements from `a`, odd from `b`, both the odd element of
the same lane. -/
def interleaved (a b : Nat → Word64) (j : Nat) : Word64 := if j % 2 = 0 then a (j + 1) else b j

/-- Element `j` of a vector register, 0 beyond the eighth. -/
def elemOf (v : VecReg) (j : Nat) : Word64 := (v[j]?).getD 0

/-- Element `j` of the destination under a writemask (41_vunpckhpd_evex.md R151): `x` where it is written, else the old element or 0. -/
def maskedElem (mask : Mask) (ks : Vector Word64 8) (old : VecReg) (x : Word64) (j : Nat) : Word64 :=
  match mask with
  | .none => x
  | .merge k => if (ks[k.toNat]'k.isLt).getLsbD j then x else elemOf old j
  | .zero k => if (ks[k.toNat]'k.isLt).getLsbD j then x else 0

/-! ## The invariant -/

/-- Bits at and above MAXVL do not exist (00_scope.md R7): every vector register holds 0 there. -/
def State.upperClear (s : State) : Prop :=
  ∀ (n : BitVec 5) (j : Nat), s.proc.maxvl.elements ≤ j → elemOf (s.vec n) j = 0

/-- Registers 16 to 31 exist only with AVX512F (10_state.md R21): without it they hold 0. -/
def State.absentClear (s : State) : Prop :=
  s.proc.hasAVX512F = false → ∀ n : BitVec 5, 16 ≤ n.toNat → s.vec n = Vector.replicate 8 0

/-- Outside `Long64` the instruction pointer is the 32-bit eip (10_state.md R25). -/
def State.ripFits (s : State) : Prop := s.mode ≠ .long64 → s.rip.toNat < 2 ^ 32

/-- What every state of a run has: canonical memory, a processor that exists, no bits above MAXVL, no registers that do not exist, an
instruction pointer of the mode's width. -/
structure State.Inv (s : State) : Prop where
  mem : Memory.wf s.mem = true
  proc : s.proc.ok = true
  upper : s.upperClear
  absent : s.absentClear
  rip : s.ripFits

/-! ## Comparing executions -/

/-- The stop `o` with its next state changed by `f`; a fault or a refusal is left alone. -/
def mapNext (f : State → State) (o : Stop) : Stop :=
  match o with
  | .next t => .next (f t)
  | .fault e => .fault e
  | .refused r => .refused r

/-! ## Safe steps -/

/-- The step completes an instruction: it answers a next state in which no exception has been raised. -/
def State.Completes (s : State) : Prop := ∃ t, step s = .next t ∧ t.exception = none

end Sys2Proof.Machine
end

