-- ==== Sys2Proof/Certificates/Slice0/Obligations.lean ====
section
/-!
DEFINITION. The statements for the provers, from the spec's numbered rules.
-/
open Sys2Proof Sys2Proof.Machine

/-! ## Encoding (30_encoding.md) -/

/-- Decoding an encoded well-formed instruction, whatever bytes follow, gives it back, in every mode. -/
def Obligations.DecodeEncodeRoundTrip : Prop :=
  ∀ (m : Mode) (i : Instr) (tail : List Byte), i.wellFormed m = true → decode m (encode i ++ tail) = .ok (i, tail)

/-- Whatever the decoder gives is an instruction its mode can spell: register numbers in reach (10_state.md R21), at most 15 bytes. -/
def Obligations.DecodeGivesWellFormed : Prop :=
  ∀ (m : Mode) (bs : List Byte) (i : Instr) (rest : List Byte), decode m bs = .ok (i, rest) → i.wellFormed m = true

/-- The decoder consumes exactly the encoded length (R108), which is 4 to 15 bytes, at least 6 for forms 4 to 6. -/
def Obligations.DecodeConsumesLength : Prop :=
  ∀ (m : Mode) (bs : List Byte) (i : Instr) (rest : List Byte), decode m bs = .ok (i, rest) →
    bs.length = i.length + rest.length ∧ rest = bs.drop i.length ∧ 4 ≤ i.length ∧ i.length ≤ 15 ∧
      (∀ p d k s1 o, i = .vunpckhpdEvex128 p d k s1 o ∨ i = .vunpckhpdEvex256 p d k s1 o ∨ i = .vunpckhpdEvex512 p d k s1 o →
        6 ≤ i.length)

/-- Decoding vectors of 95_test_vectors.md section 3.4, one for each family. -/
def Obligations.SpecVectorsDecode : Prop :=
  decode .long64 [0x66, 0x45, 0x0F, 0x15, 0xCC] = .ok (.unpckhpdRex ⟨none, false, 0⟩ 9 (.reg 12), []) ∧
  decode .long64 [0x66, 0x0F, 0x15, 0x54, 0x8B, 0x10] =
    .ok (.unpckhpd ⟨none, false, 0⟩ 2 (.mem (.sib 3 (some (1, 2)) (.d8 0x10))), []) ∧
  decode .long64 [0xC5, 0xF5, 0x15, 0xC9] = .ok (.vunpckhpd256C5 ⟨none, false, 0⟩ 1 1 (.reg 1), []) ∧
  decode .long64 [0xC4, 0x41, 0x25, 0x15, 0xD4] = .ok (.vunpckhpd256C4 ⟨none, false, 0⟩ 10 11 (.reg 12), []) ∧
  decode .long64 [0xC4, 0xE1, 0xE9, 0x15, 0xCB] = .ok (.vunpckhpd128C4 ⟨none, false, 0⟩ 1 2 (.reg 3), []) ∧
  decode .long64 [0x62, 0x81, 0xF5, 0x4A, 0x15, 0xCE] =
    .ok (.vunpckhpdEvex512 ⟨none, false, 0⟩ 17 (.merge 2) 1 (.reg 30), []) ∧
  decode .long64 [0x62, 0xF1, 0xED, 0x9F, 0x15, 0x48, 0x01] =
    .ok (.vunpckhpdEvex128 ⟨none, false, 0⟩ 1 (.zero 7) 2 (.bcst (.base 0 (.d8 1))), [])

/-- VEX.W is ignored (R88 "any W", WIG): flipping it changes nothing. -/
def Obligations.VexWIgnored : Prop :=
  ∀ (m : Mode) (v1 v2 : Byte) (bs : List Byte),
    decode m (0xC4 :: v1 :: v2 :: bs) = decode m (0xC4 :: v1 :: (v2 ^^^ 0x80) :: bs)

/-- The EVEX settings of R96 raise #UD at decode, in `Long64`, with every operand whose bytes are there: reserved P0 bits, P1[2] = 0 and
mm = 00b (for opcode 15H in every map and with every pp: DEDUCED, log 24); and, in map 0F with pp = 01b, W = 0, L'L = 11b, z = 1 with
aaa = 000b, and b = 1 with a register operand. -/
def Obligations.EvexIllegalSettingsRejected : Prop :=
  ∀ (p0 p1 p2 rm : Byte) (bs : List Byte), rm.extractLsb' 6 2 = 3 ∨ 5 ≤ bs.length →
    p0.extractLsb' 2 2 ≠ 0 ∨ p1.getLsbD 2 = false ∨ p0.extractLsb' 0 2 = 0 ∨
      (p0.extractLsb' 0 2 = 1 ∧ p1.extractLsb' 0 2 = 1 ∧
        (p1.getLsbD 7 = false ∨ p2.extractLsb' 5 2 = 3 ∨ (p2.getLsbD 7 = true ∧ p2.extractLsb' 0 3 = 0) ∨
          (p2.getLsbD 4 = true ∧ rm.extractLsb' 6 2 = 3))) →
    decode .long64 (0x62 :: p0 :: p1 :: p2 :: 0x15 :: rm :: bs) = .error .invalidOpcode

/-- A LOCK, 66H, F2H, F3H or (`Long64`) REX byte anywhere before the C5H, C4H or 62H of a VEX or EVEX form makes it #UD (R90, R100), in
`Long64` and `Prot32`. A REX byte that a segment override or 67H follows counts too (DEDUCED, log 25). In `Prot32` it is #UD under 67H as
well, though 67H alone is refused there (the order is log 18). -/
def Obligations.ByteBeforeVexIsInvalid : Prop :=
  ∀ (m : Mode) (i : Instr) (b : Byte) (n : Nat) (tail : List Byte), i.wellFormed m = true →
    (∀ p d o, i ≠ .unpckhpd p d o ∧ i ≠ .unpckhpdRex p d o) →
    b = 0xF0 ∨ b = 0x66 ∨ b = 0xF2 ∨ b = 0xF3 ∨ (m = .long64 ∧ b.extractLsb' 4 4 = 4) → n ≤ i.pfx.length →
    (i.length ≤ 14 → decode m ((encode i).take n ++ b :: ((encode i).drop n ++ tail)) = .error .invalidOpcode) ∧
    (m = .prot32 → i.length ≤ 13 →
      decode m ((encode i).take n ++ b :: 0x67 :: ((encode i).drop n ++ tail)) = .error .invalidOpcode)

/-- A LOCK, F2H or F3H byte anywhere among the prefixes of form 1, before or after its 66H, makes it #UD (R84), in every mode in which
the form can be spelled (real-address and virtual-8086 mode: log 17). -/
def Obligations.ByteBeforeForm1IsInvalid : Prop :=
  ∀ (m : Mode) (i : Instr) (b : Byte) (n : Nat) (tail : List Byte), i.wellFormed m = true → i.length ≤ 14 →
    (∃ p d o, i = .unpckhpd p d o ∨ i = .unpckhpdRex p d o) → b = 0xF0 ∨ b = 0xF2 ∨ b = 0xF3 → n ≤ i.pfx.length + 1 →
    decode m ((encode i).take n ++ b :: ((encode i).drop n ++ tail)) = .error .invalidOpcode

/-- Neighbouring encodings (R85) in `Long64`: `0F 15` without 66H, VEX with pp = 00b, and EVEX with pp = 00b and W = 0 are another
instruction, as are `0F 14` and EVEX with mm = 10b at opcode 15H; VEX and EVEX with pp = 10b or 11b are #UD. Register operand where the
answer needs one. -/
def Obligations.NeighboursAreNotTheInstruction : Prop :=
  ∀ (rm v v1 p0 p1 p2 : Byte) (bs : List Byte), rm.extractLsb' 6 2 = 3 → v1.extractLsb' 0 5 = 1 → p1.getLsbD 2 = true →
    decode .long64 (0x0F :: 0x15 :: rm :: bs) = .error .otherInstruction ∧
    decode .long64 (0x0F :: 0x14 :: bs) = .error .otherInstruction ∧
    decode .long64 (0x66 :: 0x0F :: 0x14 :: bs) = .error .otherInstruction ∧
    (v.extractLsb' 0 2 = 0 →
      decode .long64 (0xC5 :: v :: 0x15 :: bs) = .error .otherInstruction ∧
      decode .long64 (0xC4 :: v1 :: v :: 0x15 :: bs) = .error .otherInstruction) ∧
    (v.extractLsb' 0 2 = 2 ∨ v.extractLsb' 0 2 = 3 →
      decode .long64 (0xC5 :: v :: 0x15 :: rm :: bs) = .error .invalidOpcode ∧
      decode .long64 (0xC4 :: v1 :: v :: 0x15 :: rm :: bs) = .error .invalidOpcode) ∧
    (p0.extractLsb' 0 4 = 1 → p1.extractLsb' 0 2 = 0 → p1.getLsbD 7 = false →
      decode .long64 (0x62 :: p0 :: p1 :: p2 :: 0x15 :: bs) = .error .otherInstruction) ∧
    (p0.extractLsb' 0 4 = 1 → p1.extractLsb' 0 2 = 2 ∨ p1.extractLsb' 0 2 = 3 →
      decode .long64 (0x62 :: p0 :: p1 :: p2 :: 0x15 :: rm :: bs) = .error .invalidOpcode) ∧
    (p0.extractLsb' 0 4 = 2 → decode .long64 (0x62 :: p0 :: p1 :: p2 :: 0x15 :: bs) = .error .otherInstruction)

/-- Outside `Long64` the bytes C5H, C4H and 62H are LDS, LES and BOUND unless the next byte has bits 7:6 = 11b (R89, R95 and R189, which
speak of `Prot32`; that real-address and virtual-8086 mode read them alike is the model's choice, log 17). -/
def Obligations.OldInstructionsOutsideLong64 : Prop :=
  ∀ (m : Mode) (v : Byte) (bs : List Byte), m ≠ .long64 → m ≠ .prot16 → v.extractLsb' 6 2 ≠ 3 →
    decode m (0xC5 :: v :: bs) = .error .otherInstruction ∧ decode m (0xC4 :: v :: bs) = .error .otherInstruction ∧
    decode m (0x62 :: v :: bs) = .error .otherInstruction

/-- A repeated 66H before form 1 changes nothing (R84), and in `Long64` a REX byte that a legacy prefix follows is ignored (R83): the same
instruction, one byte longer (log 19: the model follows these rules and not the refusal of 92_eei_decisions.md D17). -/
def Obligations.RedundantByteBeforeForm1 : Prop :=
  ∀ (m : Mode) (sg : Option SegName) (a : Bool) (n : Nat) (d : BitVec 5) (o : RegMem) (b : Byte) (tail : List Byte),
    b = 0x66 ∨ (m = .long64 ∧ b.extractLsb' 4 4 = 4) →
    ((Instr.unpckhpd ⟨sg, a, n⟩ d o).wellFormed m = true → (Instr.unpckhpd ⟨sg, a, n⟩ d o).length ≤ 14 →
      decode m (b :: (encode (.unpckhpd ⟨sg, a, n⟩ d o) ++ tail)) = .ok (.unpckhpd ⟨sg, a, n + 1⟩ d o, tail)) ∧
    ((Instr.unpckhpdRex ⟨sg, a, n⟩ d o).wellFormed m = true → (Instr.unpckhpdRex ⟨sg, a, n⟩ d o).length ≤ 14 →
      decode m (b :: (encode (.unpckhpdRex ⟨sg, a, n⟩ d o) ++ tail)) = .ok (.unpckhpdRex ⟨sg, a, n + 1⟩ d o, tail))

/-! ## Steps -/

/-- When the bytes at rip decode to `i`, the step is `exec i`. -/
def Obligations.StepRunsDecoded : Prop :=
  ∀ (s : State) (i : Instr) (rest : List Byte), s.exception = none → decode s.mode s.fetchBytes = .ok (i, rest) →
    step s = exec i s

/-- When the bytes of a well-formed instruction can be fetched at rip, the step is its execution, whatever follows it. -/
def Obligations.StepRunsEncodedInstruction : Prop :=
  ∀ (s : State) (i : Instr), s.exception = none → i.wellFormed s.mode = true →
    (∀ k < (encode i).length, s.fetchByte k = (encode i)[k]?) → step s = exec i s

/-- A raised exception is sticky (92_eei_decisions.md D11): the machine stops with it and no handler runs. -/
def Obligations.RaisedExceptionIsSticky : Prop :=
  ∀ (s : State) (e : Exception), s.exception = some e → step s = .fault (.exceptionTaken e)

/-- Bytes whose encoding is illegal raise #UD, with no error code and nothing else changed (60_exceptions.md R172, R173 to R175). -/
def Obligations.IllegalEncodingRaisesUndefined : Prop :=
  ∀ s : State, s.exception = none → decode s.mode s.fetchBytes = .error .invalidOpcode →
    step s = .next { s with exception := some { kind := .ud, errorCode := none } }

/-- R180: one of the six forms with more than 15 bytes (redundant prefixes included) raises #GP(0). -/
def Obligations.OverlongInstructionRaisesGp : Prop :=
  ∀ (s : State) (i : Instr), s.exception = none → i.fieldsOk s.mode = true → 15 < i.length →
    s.fetchBytes = (encode i).take 15 → step s = .next { s with exception := some { kind := .gp, errorCode := some 0 } }

/-! ## Results (40_unpckhpd_sse_vex.md, 41_vunpckhpd_evex.md) -/

/-- R131, register operand: bits [127:0] of the destination become the high quadword of its old value (low) and of the second source
(high), bits [MAXVL-1:128] are unmodified; nothing but the destination and rip changes. In real-address and virtual-8086 mode too, as
60_exceptions.md R189 says of the hardware (the model's choice against D2, log 17). -/
def Obligations.Form1RegisterResult : Prop :=
  ∀ (s : State) (p : Prefixes) (d r : BitVec 5) (i : Instr), s.LegacyAllowed → s.ts = false →
    i = .unpckhpd p d (.reg r) ∨ i = .unpckhpdRex p d (.reg r) →
    ∃ t, exec i s = .next t ∧ s.WroteOnly t d i.length ∧
      elemOf (t.vec d) 0 = elemOf (s.vec d) 1 ∧ elemOf (t.vec d) 1 = elemOf (s.vec r) 1 ∧
      ∀ j, 2 ≤ j → elemOf (t.vec d) j = elemOf (s.vec d) j

/-- R131, memory operand: as with a register, the second source being the quadword at addr + 8. The byte reads recorded are all 16 or the
upper 8 (R55, R66). -/
def Obligations.Form1MemoryResult : Prop :=
  ∀ (s : State) (p : Prefixes) (d : BitVec 5) (m : MemOperand) (i : Instr) (v : Nat → Word64) (l : Located),
    s.LegacyAllowed → s.ts = false → i = .unpckhpd p d (.mem m) ∨ i = .unpckhpdRex p d (.mem m) →
    l = s.locate p 1 i.length m → s.Readable .legacy l 2 v →
    ∃ t e, exec i s = .next t ∧ s.WroteAndRead t d i.length e ∧
      (e = s.loadEvents l 0 16 v ∨ e = s.loadEvents l 8 16 v) ∧
      elemOf (t.vec d) 0 = elemOf (s.vec d) 1 ∧ elemOf (t.vec d) 1 = v 1 ∧
      ∀ j, 2 ≤ j → elemOf (t.vec d) j = elemOf (s.vec d) j

/-- R55: where memory holds only the upper eight bytes of form 1's operand, an execution either fetches only those and has its result, or
tries to fetch all sixteen and is refused. Which it does is a free value (log 8). -/
def Obligations.Form1PartialFetch : Prop :=
  ∀ (s : State) (p : Prefixes) (d : BitVec 5) (m : MemOperand) (i : Instr) (w : Word64) (l : Located),
    s.LegacyAllowed → s.ts = false → i = .unpckhpd p d (.mem m) ∨ i = .unpckhpdRex p d (.mem m) →
    l = s.locate p 1 i.length m → s.Addressable l 16 → s.Aligned .legacy l 16 → s.HoldsWord l.seg l.ea 8 w →
    (∀ j < 8, ∃ pa, s.translate (s.linear l.seg l.ea j) = .ok pa ∧ s.isDevice pa = false) →
    (∃ j < 8, ∃ pa, s.translate (s.linear l.seg l.ea j) = .ok pa ∧ Memory.read s.mem pa = none) →
    exec i s = .refused .memoryAbsent ∨
    ∃ t, exec i s = .next t ∧ s.WroteAndRead t d i.length (s.loadEvents l 8 16 fun _ => w) ∧
      elemOf (t.vec d) 0 = elemOf (s.vec d) 1 ∧ elemOf (t.vec d) 1 = w ∧
      ∀ j, 2 ≤ j → elemOf (t.vec d) j = elemOf (s.vec d) j

/-- R132, R133, register operand: each 128-bit lane of the destination becomes the high quadwords of the sources' lane, bits
[MAXVL-1:VL] are zeroed; nothing but the destination and rip changes. -/
def Obligations.VexRegisterResult : Prop :=
  ∀ (s : State) (vl : VecLen) (p : Prefixes) (d s1 r : BitVec 5) (i : Instr), s.VexAllowed → s.ts = false →
    (vl = .v128 ∧ (i = .vunpckhpd128C5 p d s1 (.reg r) ∨ i = .vunpckhpd128C4 p d s1 (.reg r))) ∨
      (vl = .v256 ∧ (i = .vunpckhpd256C5 p d s1 (.reg r) ∨ i = .vunpckhpd256C4 p d s1 (.reg r))) →
    ∃ t, exec i s = .next t ∧ s.WroteOnly t d i.length ∧
      (∀ j < vl.kl, elemOf (t.vec d) j = interleaved (elemOf (s.vec s1)) (elemOf (s.vec r)) j) ∧
      ∀ j, vl.kl ≤ j → elemOf (t.vec d) j = 0

/-- R132, R133, memory operand of VL/8 bytes, at any alignment (R57). -/
def Obligations.VexMemoryResult : Prop :=
  ∀ (s : State) (vl : VecLen) (p : Prefixes) (d s1 : BitVec 5) (m : MemOperand) (i : Instr) (v : Nat → Word64) (l : Located),
    s.VexAllowed → s.ts = false →
    (vl = .v128 ∧ (i = .vunpckhpd128C5 p d s1 (.mem m) ∨ i = .vunpckhpd128C4 p d s1 (.mem m))) ∨
      (vl = .v256 ∧ (i = .vunpckhpd256C5 p d s1 (.mem m) ∨ i = .vunpckhpd256C4 p d s1 (.mem m))) →
    l = s.locate p 1 i.length m → s.Readable .full l vl.kl v →
    ∃ t, exec i s = .next t ∧ s.WroteAndRead t d i.length (s.loadEvents l 0 (8 * vl.kl) v) ∧
      (∀ j < vl.kl, elemOf (t.vec d) j = interleaved (elemOf (s.vec s1)) v j) ∧
      ∀ j, vl.kl ≤ j → elemOf (t.vec d) j = 0

/-- R152 to R154, register operand, under any writemask: below KL an element is the interleaved value where it is written, else the old
element (merging) or 0 (zeroing); bits [MAXVL-1:VL] are zeroed whatever the mask holds. -/
def Obligations.EvexRegisterResult : Prop :=
  ∀ (s : State) (vl : VecLen) (p : Prefixes) (d s1 r : BitVec 5) (k : Mask) (i : Instr), s.EvexAllowed vl → s.ts = false →
    (vl = .v128 ∧ i = .vunpckhpdEvex128 p d k s1 (.reg r)) ∨ (vl = .v256 ∧ i = .vunpckhpdEvex256 p d k s1 (.reg r)) ∨
      (vl = .v512 ∧ i = .vunpckhpdEvex512 p d k s1 (.reg r)) →
    ∃ t, exec i s = .next t ∧ s.WroteOnly t d i.length ∧
      (∀ j < vl.kl, elemOf (t.vec d) j =
        maskedElem k s.opmask (s.vec d) (interleaved (elemOf (s.vec s1)) (elemOf (s.vec r)) j) j) ∧
      ∀ j, vl.kl ≤ j → elemOf (t.vec d) j = 0

/-- R152 to R154 with a full-width memory operand (b = 0), under any writemask; a one-byte displacement counts in units of VL/8
(30_encoding.md R106). -/
def Obligations.EvexMemoryResult : Prop :=
  ∀ (s : State) (vl : VecLen) (p : Prefixes) (d s1 : BitVec 5) (k : Mask) (m : MemOperand) (i : Instr) (v : Nat → Word64)
    (l : Located), s.EvexAllowed vl → s.ts = false →
    (vl = .v128 ∧ i = .vunpckhpdEvex128 p d k s1 (.mem m)) ∨ (vl = .v256 ∧ i = .vunpckhpdEvex256 p d k s1 (.mem m)) ∨
      (vl = .v512 ∧ i = .vunpckhpdEvex512 p d k s1 (.mem m)) →
    l = s.locate p (8 * vl.kl) i.length m → s.Readable .full l vl.kl v →
    ∃ t, exec i s = .next t ∧ s.WroteAndRead t d i.length (s.loadEvents l 0 (8 * vl.kl) v) ∧
      (∀ j < vl.kl, elemOf (t.vec d) j = maskedElem k s.opmask (s.vec d) (interleaved (elemOf (s.vec s1)) v j) j) ∧
      ∀ j, vl.kl ≤ j → elemOf (t.vec d) j = 0

/-- R152 to R154 with a broadcast operand (b = 1): every odd element of the unmasked result is the one quadword in memory (R150). -/
def Obligations.EvexBroadcastResult : Prop :=
  ∀ (s : State) (vl : VecLen) (p : Prefixes) (d s1 : BitVec 5) (k : Mask) (m : MemOperand) (i : Instr) (e : Word64)
    (l : Located), s.EvexAllowed vl → s.ts = false →
    (vl = .v128 ∧ i = .vunpckhpdEvex128 p d k s1 (.bcst m)) ∨ (vl = .v256 ∧ i = .vunpckhpdEvex256 p d k s1 (.bcst m)) ∨
      (vl = .v512 ∧ i = .vunpckhpdEvex512 p d k s1 (.bcst m)) →
    l = s.locate p 8 i.length m → s.Readable .broadcast l 1 (fun _ => e) →
    ∃ t, exec i s = .next t ∧ s.WroteAndRead t d i.length (s.loadEvents l 0 8 fun _ => e) ∧
      (∀ j < vl.kl, elemOf (t.vec d) j =
        maskedElem k s.opmask (s.vec d) (interleaved (elemOf (s.vec s1)) (fun _ => e) j) j) ∧
      ∀ j, vl.kl ≤ j → elemOf (t.vec d) j = 0

/-- R155, 30_encoding.md R112: an unmasked EVEX form of VL 128 or 256 gives every vector register the value the VEX form (either row) gives
it, with the same second source: a register, or full-width memory operands that lie at the same place. -/
def Obligations.UnmaskedEvexMatchesVex : Prop :=
  ∀ (s : State) (vl : VecLen) (p q : Prefixes) (d s1 : BitVec 5) (o : RegMemBcst) (o' : RegMem) (i j : Instr), s.EvexAllowed vl →
    s.ts = false →
    (vl = .v128 ∧ i = .vunpckhpdEvex128 p d .none s1 o ∧ (j = .vunpckhpd128C5 q d s1 o' ∨ j = .vunpckhpd128C4 q d s1 o')) ∨
      (vl = .v256 ∧ i = .vunpckhpdEvex256 p d .none s1 o ∧ (j = .vunpckhpd256C5 q d s1 o' ∨ j = .vunpckhpd256C4 q d s1 o')) →
    (∃ r, o = .reg r ∧ o' = .reg r) ∨
      (∃ m m' l v, o = .mem m ∧ o' = .mem m' ∧ l = s.locate p (8 * vl.kl) i.length m ∧ l = s.locate q 1 j.length m' ∧
        s.Readable .full l vl.kl v) →
    ∃ t u, exec i s = .next t ∧ exec j s = .next u ∧ t.zmm = u.zmm

/-! ## Exceptions of the state (60_exceptions.md) -/

/-- R173: CR0.EM = 1, CR4.OSFXSR = 0 or no SSE2 makes form 1 raise #UD, whatever its operands and CR0.TS are, in every mode but 16-bit
protected mode. -/
def Obligations.Form1Undefined : Prop :=
  ∀ (s : State) (p : Prefixes) (d : BitVec 5) (o : RegMem), s.mode ≠ .prot16 →
    s.em = true ∨ s.osfxsr = false ∨ s.proc.hasSSE2 = false →
    exec (.unpckhpd p d o) s = .next { s with exception := some { kind := .ud, errorCode := none } } ∧
    exec (.unpckhpdRex p d o) s = .next { s with exception := some { kind := .ud, errorCode := none } }

/-- R174: CR4.OSXSAVE = 0, XCR0[2:1] not 11b, no AVX, real-address or virtual-8086 mode makes forms 2 and 3 raise #UD; no XSAVE too, since XCR0
then does not exist (10_state.md R31; that this is #UD is log 34). -/
def Obligations.VexUndefined : Prop :=
  ∀ (s : State) (p : Prefixes) (d s1 : BitVec 5) (o : RegMem), s.mode ≠ .prot16 →
    s.osxsave = false ∨ s.xcr0.extractLsb' 1 2 ≠ 3#2 ∨ s.proc.hasXSAVE = false ∨ s.proc.hasAVX = false ∨
      s.mode = .real ∨ s.mode = .v86 →
    ∀ i, i = .vunpckhpd128C5 p d s1 o ∨ i = .vunpckhpd128C4 p d s1 o ∨ i = .vunpckhpd256C5 p d s1 o ∨
      i = .vunpckhpd256C4 p d s1 o →
    exec i s = .next { s with exception := some { kind := .ud, errorCode := none } }

/-- R175: CR4.OSXSAVE = 0, XCR0[2:1] not 11b, XCR0[7:5] not 111b, no AVX512F, no AVX512VL (forms 4 and 5), real-address or virtual-8086 mode
makes forms 4 to 6 raise #UD; no XSAVE too, since XCR0 then does not exist (10_state.md R31; that this is #UD is log 34). -/
def Obligations.EvexUndefined : Prop :=
  ∀ (s : State) (p : Prefixes) (d s1 : BitVec 5) (k : Mask) (o : RegMemBcst), s.mode ≠ .prot16 →
    (s.osxsave = false ∨ s.xcr0.extractLsb' 1 2 ≠ 3#2 ∨ s.xcr0.extractLsb' 5 3 ≠ 7#3 ∨ s.proc.hasAVX512F = false ∨
        s.proc.hasXSAVE = false ∨ s.mode = .real ∨ s.mode = .v86 →
      exec (.vunpckhpdEvex512 p d k s1 o) s = .next { s with exception := some { kind := .ud, errorCode := none } }) ∧
    (s.osxsave = false ∨ s.xcr0.extractLsb' 1 2 ≠ 3#2 ∨ s.xcr0.extractLsb' 5 3 ≠ 7#3 ∨ s.proc.hasAVX512F = false ∨
        s.proc.hasAVX512VL = false ∨ s.proc.hasXSAVE = false ∨ s.mode = .real ∨ s.mode = .v86 →
      exec (.vunpckhpdEvex128 p d k s1 o) s = .next { s with exception := some { kind := .ud, errorCode := none } } ∧
      exec (.vunpckhpdEvex256 p d k s1 o) s = .next { s with exception := some { kind := .ud, errorCode := none } })

/-- R176: when CR0.TS = 1 every form raises #NM, with register and memory operands alike, provided no #UD condition holds. -/
def Obligations.TaskSwitchedRaisesNm : Prop :=
  ∀ (s : State) (i : Instr), s.Allowed i → s.ts = true →
    exec i s = .next { s with exception := some { kind := .nm, errorCode := none } }

/-! ## Exceptions of the memory operand -/

/-- R54: form 1 with an operand whose linear address is not a multiple of 16 raises #GP(0), through every segment but SS and through SS when
the address is otherwise good. -/
def Obligations.Form1MisalignedRaisesGp : Prop :=
  ∀ (s : State) (i : Instr) (a : MemAccess) (l : Located), i.memAccess = some a → a.kind = .legacy → s.Allowed i →
    s.ts = false → s.mode = .long64 ∨ s.mode = .prot32 → l = s.operandOf i a → l.ea.toNat + 16 ≤ 2 ^ l.bits →
    (s.linear l.seg l.ea 0).toNat % 16 ≠ 0 → l.seg ≠ .ss ∨ s.addressOk l.seg l.ea 16 = true →
    exec i s = .next { s with exception := some { kind := .gp, errorCode := some 0 } }

/-- R181 item 5, D13: form 1 through SS, misaligned and outside the segment, raises #GP(0) or #SS(0); only the model's own `draws` changes
beside the exception. -/
def Obligations.Form1StackMisalignedRaisesEither : Prop :=
  ∀ (s : State) (i : Instr) (a : MemAccess) (l : Located), i.memAccess = some a → a.kind = .legacy → s.Allowed i →
    s.ts = false → s.mode = .long64 ∨ s.mode = .prot32 → l = s.operandOf i a → l.ea.toNat + 16 ≤ 2 ^ l.bits →
    (s.linear l.seg l.ea 0).toNat % 16 ≠ 0 → l.seg = .ss → s.addressOk l.seg l.ea 16 = false →
    ∃ k n, (k = .gp ∨ k = .ss) ∧
      exec i s = .next { s with exception := some { kind := k, errorCode := some 0 }, draws := n }

/-- R60, R177: an operand with a byte that is not canonical (`Long64`) or outside its segment (`Prot32`) raises #SS(0) through SS, else
#GP(0); for form 1, where the address is aligned. -/
def Obligations.BadAddressRaisesGpOrSs : Prop :=
  ∀ (s : State) (i : Instr) (a : MemAccess) (l : Located), i.memAccess = some a → s.Allowed i → s.ts = false →
    s.mode = .long64 ∨ s.mode = .prot32 → l = s.operandOf i a → l.ea.toNat + a.size ≤ 2 ^ l.bits →
    (a.kind = .legacy → (s.linear l.seg l.ea 0).toNat % 16 = 0) → s.addressOk l.seg l.ea a.size = false →
    exec i s =
      .next { s with exception := some { kind := if l.seg = .ss then .ss else .gp, errorCode := some 0 } }

/-- R178, R182, 41_vunpckhpd_evex.md R157: an operand with a byte on a page that faults, whatever a writemask holds, raises #PF with the error
code and the address in CR2 of some faulting byte; nothing else changes but the model's own `draws`. -/
def Obligations.PageFaultReportsAFaultingByte : Prop :=
  ∀ (s : State) (i : Instr) (a : MemAccess) (l : Located) (j : Nat) (c : BitVec 32), i.memAccess = some a → s.Allowed i →
    s.ts = false → l = s.operandOf i a → s.Addressable l a.size →
    (a.kind = .legacy → (s.linear l.seg l.ea 0).toNat % 16 = 0) →
    j < a.size → s.translate (s.linear l.seg l.ea j) = .error c →
    ∃ j' c' n, j' < a.size ∧ s.translate (s.linear l.seg l.ea j') = .error c' ∧
      exec i s = .next { s with
        exception := some { kind := .pf, errorCode := some c' }, cr2 := s.linear l.seg l.ea j', draws := n }

/-- R179: a broadcast operand whose address is not a multiple of 8 raises #AC(0) when CR0.AM = 1, EFLAGS.AC = 1 and CPL = 3. -/
def Obligations.BroadcastMisalignedRaisesAc : Prop :=
  ∀ (s : State) (i : Instr) (a : MemAccess) (l : Located), i.memAccess = some a → a.kind = .broadcast → s.Allowed i →
    s.ts = false → l = s.operandOf i a → s.Addressable l 8 →
    (∀ j < 8, ∃ pa, s.translate (s.linear l.seg l.ea j) = .ok pa) →
    s.am = true → s.ac = true → s.cpl = 3 → (s.linear l.seg l.ea 0).toNat % 8 ≠ 0 →
    exec i s = .next { s with exception := some { kind := .ac, errorCode := some 0 } }

/-- 20_memory.md R63, D6: with alignment checking enabled, a full-width operand of forms 2 to 6 that is not a multiple of its size never
completes: it is a fault of unknown kind. -/
def Obligations.FullWidthMisalignedIsUnknownFault : Prop :=
  ∀ (s : State) (i : Instr) (a : MemAccess) (l : Located), i.memAccess = some a → a.kind = .full → s.Allowed i →
    s.ts = false → l = s.operandOf i a → s.Addressable l a.size →
    (∀ j < a.size, ∃ pa, s.translate (s.linear l.seg l.ea j) = .ok pa) →
    s.am = true → s.ac = true → s.cpl = 3 → (s.linear l.seg l.ea 0).toNat % a.size ≠ 0 →
    exec i s = .fault .alignmentUnknown

/-- D15, D16, D24: an operand past the top of the effective-address space, one that touches a device region, and one of which memory lacks
a byte that is read (for form 1 a byte of the upper eight, R55) are refused, each by name. -/
def Obligations.UnspecifiedStorageIsRefused : Prop :=
  ∀ (s : State) (i : Instr) (a : MemAccess) (l : Located), i.memAccess = some a → s.Allowed i → s.ts = false →
    s.mode = .long64 ∨ s.mode = .prot32 → l = s.operandOf i a →
    (2 ^ l.bits < l.ea.toNat + a.size → exec i s = .refused .operandPastTop) ∧
    (s.Addressable l a.size → s.Aligned a.kind l a.size →
      (∀ j < a.size, ∃ pa, s.translate (s.linear l.seg l.ea j) = .ok pa) →
      ((∃ j < a.size, ∃ pa, s.translate (s.linear l.seg l.ea j) = .ok pa ∧ s.isDevice pa = true) →
        exec i s = .refused .deviceMemory) ∧
      ((∀ j < a.size, ∀ pa, s.translate (s.linear l.seg l.ea j) = .ok pa → s.isDevice pa = false) →
        (∃ j < a.size, (a.kind = .legacy → 8 ≤ j) ∧
          ∃ pa, s.translate (s.linear l.seg l.ea j) = .ok pa ∧ Memory.read s.mem pa = none) →
        exec i s = .refused .memoryAbsent))

/-! ## Addresses (20_memory.md R58 to R61, R71; 30_encoding.md R101 to R107) -/

/-- R58, R102, R103, R106: base plus index times 2^scale plus the signed displacement (a one-byte one times N), modulo 2^A, for every
operand with a base register, an index or an absolute displacement in a SIB byte. -/
def Obligations.EffectiveAddressIsModularSum : Prop :=
  ∀ (s : State) (bits n len : Nat) (b : BitVec 4) (ix : Index) (d : Disp) (d32 : BitVec 32),
    bits = 32 ∨ bits = 64 → n ≤ 64 →
    ((s.effAddr bits n len (.base b d)).toNat : Int) = ((s.reg b).toNat + dispInt n d) % 2 ^ bits ∧
    ((s.effAddr bits n len (.sib b ix d)).toNat : Int) = ((s.reg b).toNat + s.indexNat ix + dispInt n d) % 2 ^ bits ∧
    ((s.effAddr bits n len (.sibNoBase ix d32)).toNat : Int) = (s.indexNat ix + d32.toInt) % 2 ^ bits

/-- R104, R105: with mod = 00b and r/m = 101b the address is that of the next instruction plus disp32 in `Long64`, truncated to 32 bits under
67H; disp32 alone elsewhere. -/
def Obligations.RipRelativeAddress : Prop :=
  ∀ (s : State) (p : Prefixes) (n len : Nat) (d : BitVec 32), len ≤ 15 →
    (s.mode = .long64 → p.addr32 = false →
      ((s.locate p n len (.disp32 d)).ea.toNat : Int) = (s.rip.toNat + len + d.toInt) % 2 ^ 64) ∧
    (s.mode = .long64 → p.addr32 = true →
      ((s.locate p n len (.disp32 d)).ea.toNat : Int) = (s.rip.toNat + len + d.toInt) % 2 ^ 32) ∧
    (s.mode ≠ .long64 → (s.locate p n len (.disp32 d)).ea.toNat = d.toNat)

/-- R107: the segment of an operand. Without an override SS for base register RSP or RBP, DS for every other and without one; an override
replaces it, but in `Long64` only FS and GS overrides count (that an ignored one leaves the default is log 38). -/
def Obligations.OperandSegmentRule : Prop :=
  ∀ (s : State) (p : Prefixes) (n len : Nat) (b : BitVec 4) (ix : Index) (d : Disp) (m : MemOperand) (dflt : SegName),
    ((m = .base b d ∨ m = .sib b ix d) ∧ dflt = if b.toNat = 4 ∨ b.toNat = 5 then SegName.ss else SegName.ds) ∨
      ((∃ d32, m = .sibNoBase ix d32 ∨ m = .disp32 d32) ∧ dflt = .ds) →
    (p.seg = none → (s.locate p n len m).seg = dflt) ∧
    (∀ o, p.seg = some o → o = .fs ∨ o = .gs ∨ s.mode ≠ .long64 → (s.locate p n len m).seg = o) ∧
    (∀ o, p.seg = some o → o ≠ .fs → o ≠ .gs → s.mode = .long64 → (s.locate p n len m).seg = dflt)

/-- R59: segment base plus effective address, modulo 2^64 in `Long64` (base 0 but for FS and GS), modulo 2^32 elsewhere. -/
def Obligations.LinearAddressRule : Prop :=
  ∀ (s : State) (g : SegName) (ea : Word64) (i : Nat),
    (s.mode = .long64 → g = .fs ∨ g = .gs →
      (s.linear g ea i).toNat = ((s.segReg g).base.toNat + ea.toNat + i) % 2 ^ 64) ∧
    (s.mode = .long64 → g ≠ .fs → g ≠ .gs → (s.linear g ea i).toNat = (ea.toNat + i) % 2 ^ 64) ∧
    (s.mode ≠ .long64 → (s.linear g ea i).toNat = ((s.segReg g).base.toNat + ea.toNat + i) % 2 ^ 32)

/-- R60: the address check of an operand: every byte canonical in `Long64`; in `Prot32` a non-null selector, a readable segment and every byte
within the segment, which is the limit test where `SegCheck` is given no rule for it (log 6). That selectors 0 to 3 are null is log 42. -/
def Obligations.OperandAddressCheck : Prop :=
  ∀ (s : State) (g : SegName) (ea : Word64) (size : Nat), 0 < size →
    (s.mode = .long64 → (s.addressOk g ea size = true ↔ ∀ i < size, s.canonical (s.linear g ea i) = true)) ∧
    (s.mode = .prot32 → (s.addressOk g ea size = true ↔
      4 ≤ (s.segReg g).selector.toNat ∧ (s.segReg g).readable = true ∧
        ∀ i < size, s.withinSegment g (ea.toNat + i) = true)) ∧
    ∀ off, (∀ r ∈ s.segRules, r.seg = g → off < r.first ∨ r.last < off) →
      (s.withinSegment g off = true ↔ off ≤ (s.segReg g).limit.toNat)

/-- 10_state.md R32: the two modes in scope. The third clause, real-address mode when CR0.PE = 0 outside `Long64`, is the model's choice
(log 39). -/
def Obligations.ModeRule : Prop :=
  ∀ s : State,
    (s.mode = .long64 ↔ s.efer.getLsbD 10 = true ∧ (s.segReg .cs).long = true) ∧
    (s.mode = .prot32 ↔ s.cr0.getLsbD 0 = true ∧ s.rflags.getLsbD 17 = false ∧ (s.segReg .cs).big = true ∧
      ¬ (s.efer.getLsbD 10 = true ∧ (s.segReg .cs).long = true)) ∧
    (s.mode = .real ↔ s.cr0.getLsbD 0 = false ∧ ¬ (s.efer.getLsbD 10 = true ∧ (s.segReg .cs).long = true))

/-- R60, R71: an address is canonical when it is not in the hole from 2^(LinearBits-1) up to 2^64 - 2^(LinearBits-1). -/
def Obligations.CanonicalMeansOutsideTheHole : Prop :=
  ∀ (s : State) (a : Word64),
    s.canonical a = true ↔
      a.toNat < 2 ^ (s.proc.linearBits.bits - 1) ∨ 2 ^ 64 - 2 ^ (s.proc.linearBits.bits - 1) ≤ a.toNat

/-- R61: the error code of a data-read page fault: W/R (bit 1) and I/D (bit 4) are 0, U/S (bit 2) is 1 exactly when CPL = 3, and P (0),
RSVD (3) and PK (5) are those of the page's rule; no other bit is set. -/
def Obligations.PageFaultErrorCode : Prop :=
  ∀ (s : State) (a : Word64) (c : BitVec 32), s.translate a = .error c →
    ∃ r ∈ s.pages, ∃ present rsvd pk : Bool, r.page = a.toNat / 4096 ∧
      (if s.cpl = 3 then r.user else r.supervisor) = .fault present rsvd pk ∧
      c.getLsbD 0 = present ∧ c.getLsbD 1 = false ∧ c.getLsbD 2 = decide (s.cpl = 3) ∧ c.getLsbD 3 = rsvd ∧
      c.getLsbD 4 = false ∧ c.getLsbD 5 = pk ∧ c.toNat < 64

/-! ## Whole-machine rules -/

/-- R183: every exception is a precise fault: nothing changes but CR2 on a #PF (and the model's own `exception` and `draws`), and rip still
addresses the instruction. -/
def Obligations.FaultsArePrecise : Prop :=
  ∀ (s t : State) (e : Exception), step s = .next t → t.exception = some e →
    t = { s with exception := some e, cr2 := t.cr2, draws := t.draws } ∧ (e.kind ≠ .pf → t.cr2 = s.cr2)

/-- R172, R170: the exceptions a step can raise carry the error codes of the table, #UD and #NM none, #SS, #GP and #AC zero, #PF a code; the
vectors are those of the table and never 19. -/
def Obligations.OnlyTheListedExceptions : Prop :=
  ∀ (s t : State) (e : Exception), step s = .next t → t.exception = some e →
    (e.errorCode = none ∧ (e.kind.vector = 6 ∨ e.kind.vector = 7)) ∨
    (e.errorCode = some 0 ∧ (e.kind.vector = 12 ∨ e.kind.vector = 13 ∨ e.kind.vector = 17)) ∨
    (∃ c, e.errorCode = some c ∧ e.kind.vector = 14)

/-- R34: a step that raises no exception has executed one of the six forms, and only the destination register and rip differ (and the model's own
`reads` and `draws`). -/
def Obligations.CompletedStepWritesOnlyDestinationAndRip : Prop :=
  ∀ s t : State, step s = .next t → t.exception = none →
    ∃ i rest, decode s.mode s.fetchBytes = .ok (i, rest) ∧
      t = { s with zmm := s.zmm.set i.dest.toNat (t.vec i.dest) i.dest.isLt, rip := s.nextRip i.length,
                   reads := t.reads, draws := t.draws }

/-- R52: no instruction writes memory: every byte reads as before. -/
def Obligations.MemoryIsNeverWritten : Prop :=
  ∀ (s t : State) (i : Instr), exec i s = .next t → t.mem = s.mem ∧ ∀ a, Memory.read t.mem a = Memory.read s.mem a

/-- 10_state.md R23, R24, R26 to R33: no step writes an opmask, general, segment or flag register, MXCSR, CR0, CR4, XCR0, IA32_EFER, CPL, or
the given parameters: processor, memory, translation, segment checks, device map, read oracle. (CR2, which a #PF writes, is
FaultsArePrecise.) -/
def Obligations.GatingStateIsNeverWritten : Prop :=
  ∀ s t : State, step s = .next t →
    t.opmask = s.opmask ∧ t.gpr = s.gpr ∧ t.seg = s.seg ∧ t.rflags = s.rflags ∧ t.mxcsr = s.mxcsr ∧ t.cr0 = s.cr0 ∧
    t.cr4 = s.cr4 ∧ t.xcr0 = s.xcr0 ∧ t.efer = s.efer ∧ t.cpl = s.cpl ∧ t.proc = s.proc ∧ t.pages = s.pages ∧
    t.segRules = s.segRules ∧ t.devices = s.devices ∧ t.oracle = s.oracle ∧ t.mem = s.mem

/-- Every step keeps the invariant: canonical memory, a processor that exists, no bit at or above MAXVL, no register that does not exist, an
instruction pointer of the mode's width. -/
def Obligations.StepKeepsInv : Prop :=
  ∀ s t : State, s.Inv → step s = .next t → t.Inv

/-- The state after reset has the invariant (its processor parameters are the model's choice, log 3). -/
def Obligations.ResetHasInv : Prop := State.reset.Inv

/-- R36: the reset values of its table, real-address mode, and a first fetch at FFFFFFF0H. RAX = 0 is the self-test result on pass, which the
model takes (log 2); RDX is left out. -/
def Obligations.ResetValues : Prop :=
  (∀ n : BitVec 5, ∀ j, elemOf (State.reset.vec n) j = 0) ∧ (∀ n : BitVec 3, State.reset.opmask[n.toNat]'n.isLt = 0) ∧
  State.reset.mxcsr = 0x1F80 ∧ (∀ n : BitVec 4, n ≠ 2 → State.reset.reg n = 0) ∧ State.reset.rip = 0xFFF0 ∧
  (State.reset.segReg .cs).selector = 0xF000 ∧ (State.reset.segReg .cs).base = 0xFFFF0000 ∧
  State.reset.fetchLinear 0 = some 0xFFFFFFF0 ∧ State.reset.rflags = 2 ∧ State.reset.cr0 = 0x60000010 ∧
  State.reset.cr4 = 0 ∧ State.reset.xcr0 = 1 ∧ State.reset.efer = 0 ∧ State.reset.cpl = 0 ∧ State.reset.mode = .real

/-- 70_reset_and_hazards.md R211, an inference of the spec from R36 and R173 to R175: right after reset every form raises #UD. -/
def Obligations.EveryFormUndefinedAtReset : Prop :=
  ∀ i : Instr, exec i State.reset = .next { State.reset with exception := some { kind := .ud, errorCode := none } }

/-- 10_state.md R28, 40_unpckhpd_sse_vex.md R135: MXCSR is neither read nor written: with any other value every form does the same and leaves that
value. -/
def Obligations.MxcsrIsNeitherReadNorWritten : Prop :=
  ∀ (i : Instr) (s : State) (x : BitVec 32),
    exec i { s with mxcsr := x } = mapNext (fun t => { t with mxcsr := x }) (exec i s)

/-- 41_vunpckhpd_evex.md R156, an inference of the spec from R151: only bits [KL-1:0] of the selected opmask register are consulted:
opmask registers that agree there give the same execution, and each keeps its own value; with no writemask (R155) no opmask register is consulted. -/
def Obligations.UpperMaskBitsIgnored : Prop :=
  ∀ (s : State) (vl : VecLen) (ks : Vector Word64 8) (p : Prefixes) (d s1 : BitVec 5) (k : Mask) (o : RegMemBcst) (i : Instr),
    (vl = .v128 ∧ i = .vunpckhpdEvex128 p d k s1 o) ∨ (vl = .v256 ∧ i = .vunpckhpdEvex256 p d k s1 o) ∨
      (vl = .v512 ∧ i = .vunpckhpdEvex512 p d k s1 o) →
    (∀ n : BitVec 3, k = .merge n ∨ k = .zero n → ∀ j < vl.kl,
      (ks[n.toNat]'n.isLt).getLsbD j = (s.opmask[n.toNat]'n.isLt).getLsbD j) →
    exec i { s with opmask := ks } = mapNext (fun t => { t with opmask := ks }) (exec i s)

/-- 60_exceptions.md R188: with a register second source every form does the same at every privilege level. -/
def Obligations.PrivilegeLevelIsIrrelevant : Prop :=
  ∀ (i : Instr) (s : State) (c : BitVec 2), i.memAccess = none →
    exec i { s with cpl := c } = mapNext (fun t => { t with cpl := c }) (exec i s)

/-- 60_exceptions.md R181, R194: with a register second source a form never faults or is refused outside 16-bit protected mode: it completes, or
raises #UD or #NM. In real-address and virtual-8086 mode, which R181 and R194 do not speak of, that is the model's choice (log 17). -/
def Obligations.RegisterFormsOnlyUdOrNm : Prop :=
  ∀ (i : Instr) (s : State), i.memAccess = none → s.mode ≠ .prot16 →
    ∃ t, exec i s = .next t ∧
      (s.WroteOnly t i.dest i.length ∨ t = { s with exception := some { kind := .ud, errorCode := none } } ∨
        t = { s with exception := some { kind := .nm, errorCode := none } })

/-- 10_state.md R35, 40_unpckhpd_sse_vex.md R130: only the high element of each lane of a source reaches the result: other source registers with
the same high elements give the same execution (forms 2 and 3, register operands). -/
def Obligations.LowElementsOfSourcesIgnored : Prop :=
  ∀ (s : State) (p : Prefixes) (d a a' b b' : BitVec 5),
    (∀ j, j % 2 = 1 → elemOf (s.vec a) j = elemOf (s.vec a') j) → (∀ j, j % 2 = 1 → elemOf (s.vec b) j = elemOf (s.vec b') j) →
    exec (.vunpckhpd128C5 p d a (.reg b)) s = exec (.vunpckhpd128C5 p d a' (.reg b')) s ∧
    exec (.vunpckhpd128C4 p d a (.reg b)) s = exec (.vunpckhpd128C4 p d a' (.reg b')) s ∧
    exec (.vunpckhpd256C5 p d a (.reg b)) s = exec (.vunpckhpd256C5 p d a' (.reg b')) s ∧
    exec (.vunpckhpd256C4 p d a (.reg b)) s = exec (.vunpckhpd256C4 p d a' (.reg b')) s

/-! ## The order of length and #UD; the read oracle -/

/-- 60_exceptions.md R181, items 2 and 3: the length fault comes before #UD. Ten 66H bytes before an EVEX prefix at opcode 15H,
#UD for the 66H (R100) and for its own fields too where they are illegal (R96): its ModRM would be the sixteenth byte. That an illegal EVEX
prefix has the length its opcode and ModRM give it is the model's inference (log 23), and so is that the reserved bits and mm = 00b are
illegal in every map and with every pp, where R96 speaks of map 0F with pp = 01b (log 24). -/
def Obligations.LengthFaultComesFirst : Prop :=
  ∀ (s : State) (p0 p1 p2 : Byte), s.exception = none → s.mode = .long64 →
    p0.extractLsb' 2 2 ≠ 0 ∨ p1.getLsbD 2 = false ∨ p0.extractLsb' 0 2 = 0 ∨
      (p0.extractLsb' 0 2 = 1 ∧ p1.extractLsb' 0 2 ≠ 0) →
    s.fetchBytes = List.replicate 10 0x66 ++ [0x62, p0, p1, p2, 0x15] →
    step s = .next { s with exception := some { kind := .gp, errorCode := some 0 } }

/-- 20_memory.md R66: a byte is read from the read oracle. Where no other writer's answer is given for the load and the address it is memory's
byte; where the first answer given is `b` it is `b`, if memory holds the address at all (R71). -/
def Obligations.OracleAnswersEveryByteRead : Prop :=
  ∀ (s : State) (a : Word64) (x : Byte), Memory.read s.mem (s.physical a) = some x →
    ((∀ r ∈ s.oracle, r.load = s.reads.length → r.addr ≠ a) → s.readByte a = some x) ∧
    (∀ pre r post, s.oracle = pre ++ r :: post → r.load = s.reads.length → r.addr = a →
      (∀ r' ∈ pre, r'.load = s.reads.length → r'.addr ≠ a) → s.readByte a = some r.value)
end

