-- ==== Sys2Proof/Laws/State.lean ====
section
/-!
SUPPORT. What each named update of the state does to each field, so that no proof unfolds a record update.
-/
namespace Sys2Proof.Machine

/-! ## `State.setVec` -/

@[simp] theorem State.setVec_zmm (s : State) (n : BitVec 5) (v : VecReg) : (s.setVec n v).zmm = s.zmm.set n.toNat v n.isLt := rfl
@[simp] theorem State.setVec_opmask (s : State) (n : BitVec 5) (v : VecReg) : (s.setVec n v).opmask = s.opmask := rfl
@[simp] theorem State.setVec_gpr (s : State) (n : BitVec 5) (v : VecReg) : (s.setVec n v).gpr = s.gpr := rfl
@[simp] theorem State.setVec_rip (s : State) (n : BitVec 5) (v : VecReg) : (s.setVec n v).rip = s.rip := rfl
@[simp] theorem State.setVec_seg (s : State) (n : BitVec 5) (v : VecReg) : (s.setVec n v).seg = s.seg := rfl
@[simp] theorem State.setVec_rflags (s : State) (n : BitVec 5) (v : VecReg) : (s.setVec n v).rflags = s.rflags := rfl
@[simp] theorem State.setVec_mxcsr (s : State) (n : BitVec 5) (v : VecReg) : (s.setVec n v).mxcsr = s.mxcsr := rfl
@[simp] theorem State.setVec_cr0 (s : State) (n : BitVec 5) (v : VecReg) : (s.setVec n v).cr0 = s.cr0 := rfl
@[simp] theorem State.setVec_cr2 (s : State) (n : BitVec 5) (v : VecReg) : (s.setVec n v).cr2 = s.cr2 := rfl
@[simp] theorem State.setVec_cr4 (s : State) (n : BitVec 5) (v : VecReg) : (s.setVec n v).cr4 = s.cr4 := rfl
@[simp] theorem State.setVec_xcr0 (s : State) (n : BitVec 5) (v : VecReg) : (s.setVec n v).xcr0 = s.xcr0 := rfl
@[simp] theorem State.setVec_efer (s : State) (n : BitVec 5) (v : VecReg) : (s.setVec n v).efer = s.efer := rfl
@[simp] theorem State.setVec_cpl (s : State) (n : BitVec 5) (v : VecReg) : (s.setVec n v).cpl = s.cpl := rfl
@[simp] theorem State.setVec_proc (s : State) (n : BitVec 5) (v : VecReg) : (s.setVec n v).proc = s.proc := rfl
@[simp] theorem State.setVec_mem (s : State) (n : BitVec 5) (v : VecReg) : (s.setVec n v).mem = s.mem := rfl
@[simp] theorem State.setVec_pages (s : State) (n : BitVec 5) (v : VecReg) : (s.setVec n v).pages = s.pages := rfl
@[simp] theorem State.setVec_devices (s : State) (n : BitVec 5) (v : VecReg) : (s.setVec n v).devices = s.devices := rfl
@[simp] theorem State.setVec_segRules (s : State) (n : BitVec 5) (v : VecReg) : (s.setVec n v).segRules = s.segRules := rfl
@[simp] theorem State.setVec_oracle (s : State) (n : BitVec 5) (v : VecReg) : (s.setVec n v).oracle = s.oracle := rfl
@[simp] theorem State.setVec_exception (s : State) (n : BitVec 5) (v : VecReg) : (s.setVec n v).exception = s.exception := rfl
@[simp] theorem State.setVec_reads (s : State) (n : BitVec 5) (v : VecReg) : (s.setVec n v).reads = s.reads := rfl
@[simp] theorem State.setVec_draws (s : State) (n : BitVec 5) (v : VecReg) : (s.setVec n v).draws = s.draws := rfl
@[simp] theorem State.setVec_mode (s : State) (n : BitVec 5) (v : VecReg) : (s.setVec n v).mode = s.mode := rfl

/-! ## `State.advance` -/

@[simp] theorem State.advance_zmm (s : State) (len : Nat) : (s.advance len).zmm = s.zmm := rfl
@[simp] theorem State.advance_opmask (s : State) (len : Nat) : (s.advance len).opmask = s.opmask := rfl
@[simp] theorem State.advance_gpr (s : State) (len : Nat) : (s.advance len).gpr = s.gpr := rfl
@[simp] theorem State.advance_rip (s : State) (len : Nat) : (s.advance len).rip = if s.mode = .long64 then s.rip + BitVec.ofNat 64 len else low32 (s.rip + BitVec.ofNat 64 len) := rfl
@[simp] theorem State.advance_seg (s : State) (len : Nat) : (s.advance len).seg = s.seg := rfl
@[simp] theorem State.advance_rflags (s : State) (len : Nat) : (s.advance len).rflags = s.rflags := rfl
@[simp] theorem State.advance_mxcsr (s : State) (len : Nat) : (s.advance len).mxcsr = s.mxcsr := rfl
@[simp] theorem State.advance_cr0 (s : State) (len : Nat) : (s.advance len).cr0 = s.cr0 := rfl
@[simp] theorem State.advance_cr2 (s : State) (len : Nat) : (s.advance len).cr2 = s.cr2 := rfl
@[simp] theorem State.advance_cr4 (s : State) (len : Nat) : (s.advance len).cr4 = s.cr4 := rfl
@[simp] theorem State.advance_xcr0 (s : State) (len : Nat) : (s.advance len).xcr0 = s.xcr0 := rfl
@[simp] theorem State.advance_efer (s : State) (len : Nat) : (s.advance len).efer = s.efer := rfl
@[simp] theorem State.advance_cpl (s : State) (len : Nat) : (s.advance len).cpl = s.cpl := rfl
@[simp] theorem State.advance_proc (s : State) (len : Nat) : (s.advance len).proc = s.proc := rfl
@[simp] theorem State.advance_mem (s : State) (len : Nat) : (s.advance len).mem = s.mem := rfl
@[simp] theorem State.advance_pages (s : State) (len : Nat) : (s.advance len).pages = s.pages := rfl
@[simp] theorem State.advance_devices (s : State) (len : Nat) : (s.advance len).devices = s.devices := rfl
@[simp] theorem State.advance_segRules (s : State) (len : Nat) : (s.advance len).segRules = s.segRules := rfl
@[simp] theorem State.advance_oracle (s : State) (len : Nat) : (s.advance len).oracle = s.oracle := rfl
@[simp] theorem State.advance_exception (s : State) (len : Nat) : (s.advance len).exception = s.exception := rfl
@[simp] theorem State.advance_reads (s : State) (len : Nat) : (s.advance len).reads = s.reads := rfl
@[simp] theorem State.advance_draws (s : State) (len : Nat) : (s.advance len).draws = s.draws := rfl
@[simp] theorem State.advance_mode (s : State) (len : Nat) : (s.advance len).mode = s.mode := rfl
@[simp] theorem State.advance_vec (s : State) (len : Nat) (k : BitVec 5) : (s.advance len).vec k = s.vec k := rfl

/-! ## `State.recordRead` -/

@[simp] theorem State.recordRead_zmm (s : State) (e : Load) : (s.recordRead e).zmm = s.zmm := rfl
@[simp] theorem State.recordRead_opmask (s : State) (e : Load) : (s.recordRead e).opmask = s.opmask := rfl
@[simp] theorem State.recordRead_gpr (s : State) (e : Load) : (s.recordRead e).gpr = s.gpr := rfl
@[simp] theorem State.recordRead_rip (s : State) (e : Load) : (s.recordRead e).rip = s.rip := rfl
@[simp] theorem State.recordRead_seg (s : State) (e : Load) : (s.recordRead e).seg = s.seg := rfl
@[simp] theorem State.recordRead_rflags (s : State) (e : Load) : (s.recordRead e).rflags = s.rflags := rfl
@[simp] theorem State.recordRead_mxcsr (s : State) (e : Load) : (s.recordRead e).mxcsr = s.mxcsr := rfl
@[simp] theorem State.recordRead_cr0 (s : State) (e : Load) : (s.recordRead e).cr0 = s.cr0 := rfl
@[simp] theorem State.recordRead_cr2 (s : State) (e : Load) : (s.recordRead e).cr2 = s.cr2 := rfl
@[simp] theorem State.recordRead_cr4 (s : State) (e : Load) : (s.recordRead e).cr4 = s.cr4 := rfl
@[simp] theorem State.recordRead_xcr0 (s : State) (e : Load) : (s.recordRead e).xcr0 = s.xcr0 := rfl
@[simp] theorem State.recordRead_efer (s : State) (e : Load) : (s.recordRead e).efer = s.efer := rfl
@[simp] theorem State.recordRead_cpl (s : State) (e : Load) : (s.recordRead e).cpl = s.cpl := rfl
@[simp] theorem State.recordRead_proc (s : State) (e : Load) : (s.recordRead e).proc = s.proc := rfl
@[simp] theorem State.recordRead_mem (s : State) (e : Load) : (s.recordRead e).mem = s.mem := rfl
@[simp] theorem State.recordRead_pages (s : State) (e : Load) : (s.recordRead e).pages = s.pages := rfl
@[simp] theorem State.recordRead_devices (s : State) (e : Load) : (s.recordRead e).devices = s.devices := rfl
@[simp] theorem State.recordRead_segRules (s : State) (e : Load) : (s.recordRead e).segRules = s.segRules := rfl
@[simp] theorem State.recordRead_oracle (s : State) (e : Load) : (s.recordRead e).oracle = s.oracle := rfl
@[simp] theorem State.recordRead_exception (s : State) (e : Load) : (s.recordRead e).exception = s.exception := rfl
@[simp] theorem State.recordRead_reads (s : State) (e : Load) : (s.recordRead e).reads = s.reads ++ [e] := rfl
@[simp] theorem State.recordRead_draws (s : State) (e : Load) : (s.recordRead e).draws = s.draws := rfl
@[simp] theorem State.recordRead_mode (s : State) (e : Load) : (s.recordRead e).mode = s.mode := rfl
@[simp] theorem State.recordRead_vec (s : State) (e : Load) (k : BitVec 5) : (s.recordRead e).vec k = s.vec k := rfl

/-! ## `State.draw` -/

@[simp] theorem State.draw_zmm (s : State) : (s.draw).zmm = s.zmm := rfl
@[simp] theorem State.draw_opmask (s : State) : (s.draw).opmask = s.opmask := rfl
@[simp] theorem State.draw_gpr (s : State) : (s.draw).gpr = s.gpr := rfl
@[simp] theorem State.draw_rip (s : State) : (s.draw).rip = s.rip := rfl
@[simp] theorem State.draw_seg (s : State) : (s.draw).seg = s.seg := rfl
@[simp] theorem State.draw_rflags (s : State) : (s.draw).rflags = s.rflags := rfl
@[simp] theorem State.draw_mxcsr (s : State) : (s.draw).mxcsr = s.mxcsr := rfl
@[simp] theorem State.draw_cr0 (s : State) : (s.draw).cr0 = s.cr0 := rfl
@[simp] theorem State.draw_cr2 (s : State) : (s.draw).cr2 = s.cr2 := rfl
@[simp] theorem State.draw_cr4 (s : State) : (s.draw).cr4 = s.cr4 := rfl
@[simp] theorem State.draw_xcr0 (s : State) : (s.draw).xcr0 = s.xcr0 := rfl
@[simp] theorem State.draw_efer (s : State) : (s.draw).efer = s.efer := rfl
@[simp] theorem State.draw_cpl (s : State) : (s.draw).cpl = s.cpl := rfl
@[simp] theorem State.draw_proc (s : State) : (s.draw).proc = s.proc := rfl
@[simp] theorem State.draw_mem (s : State) : (s.draw).mem = s.mem := rfl
@[simp] theorem State.draw_pages (s : State) : (s.draw).pages = s.pages := rfl
@[simp] theorem State.draw_devices (s : State) : (s.draw).devices = s.devices := rfl
@[simp] theorem State.draw_segRules (s : State) : (s.draw).segRules = s.segRules := rfl
@[simp] theorem State.draw_oracle (s : State) : (s.draw).oracle = s.oracle := rfl
@[simp] theorem State.draw_exception (s : State) : (s.draw).exception = s.exception := rfl
@[simp] theorem State.draw_reads (s : State) : (s.draw).reads = s.reads := rfl
@[simp] theorem State.draw_draws (s : State) : (s.draw).draws = s.draws + 1 := rfl
@[simp] theorem State.draw_mode (s : State) : (s.draw).mode = s.mode := rfl
@[simp] theorem State.draw_vec (s : State) (k : BitVec 5) : (s.draw).vec k = s.vec k := rfl

/-! ## `State.raise` -/

@[simp] theorem State.raise_zmm (s : State) (e : Exception) : (s.raise e).zmm = s.zmm := rfl
@[simp] theorem State.raise_opmask (s : State) (e : Exception) : (s.raise e).opmask = s.opmask := rfl
@[simp] theorem State.raise_gpr (s : State) (e : Exception) : (s.raise e).gpr = s.gpr := rfl
@[simp] theorem State.raise_rip (s : State) (e : Exception) : (s.raise e).rip = s.rip := rfl
@[simp] theorem State.raise_seg (s : State) (e : Exception) : (s.raise e).seg = s.seg := rfl
@[simp] theorem State.raise_rflags (s : State) (e : Exception) : (s.raise e).rflags = s.rflags := rfl
@[simp] theorem State.raise_mxcsr (s : State) (e : Exception) : (s.raise e).mxcsr = s.mxcsr := rfl
@[simp] theorem State.raise_cr0 (s : State) (e : Exception) : (s.raise e).cr0 = s.cr0 := rfl
@[simp] theorem State.raise_cr2 (s : State) (e : Exception) : (s.raise e).cr2 = s.cr2 := rfl
@[simp] theorem State.raise_cr4 (s : State) (e : Exception) : (s.raise e).cr4 = s.cr4 := rfl
@[simp] theorem State.raise_xcr0 (s : State) (e : Exception) : (s.raise e).xcr0 = s.xcr0 := rfl
@[simp] theorem State.raise_efer (s : State) (e : Exception) : (s.raise e).efer = s.efer := rfl
@[simp] theorem State.raise_cpl (s : State) (e : Exception) : (s.raise e).cpl = s.cpl := rfl
@[simp] theorem State.raise_proc (s : State) (e : Exception) : (s.raise e).proc = s.proc := rfl
@[simp] theorem State.raise_mem (s : State) (e : Exception) : (s.raise e).mem = s.mem := rfl
@[simp] theorem State.raise_pages (s : State) (e : Exception) : (s.raise e).pages = s.pages := rfl
@[simp] theorem State.raise_devices (s : State) (e : Exception) : (s.raise e).devices = s.devices := rfl
@[simp] theorem State.raise_segRules (s : State) (e : Exception) : (s.raise e).segRules = s.segRules := rfl
@[simp] theorem State.raise_oracle (s : State) (e : Exception) : (s.raise e).oracle = s.oracle := rfl
@[simp] theorem State.raise_exception (s : State) (e : Exception) : (s.raise e).exception = some e := rfl
@[simp] theorem State.raise_reads (s : State) (e : Exception) : (s.raise e).reads = s.reads := rfl
@[simp] theorem State.raise_draws (s : State) (e : Exception) : (s.raise e).draws = s.draws := rfl
@[simp] theorem State.raise_mode (s : State) (e : Exception) : (s.raise e).mode = s.mode := rfl
@[simp] theorem State.raise_vec (s : State) (e : Exception) (k : BitVec 5) : (s.raise e).vec k = s.vec k := rfl

/-! ## `State.raisePageFault` -/

@[simp] theorem State.raisePageFault_zmm (s : State) (a : Word64) (c : BitVec 32) : (s.raisePageFault a c).zmm = s.zmm := rfl
@[simp] theorem State.raisePageFault_opmask (s : State) (a : Word64) (c : BitVec 32) : (s.raisePageFault a c).opmask = s.opmask := rfl
@[simp] theorem State.raisePageFault_gpr (s : State) (a : Word64) (c : BitVec 32) : (s.raisePageFault a c).gpr = s.gpr := rfl
@[simp] theorem State.raisePageFault_rip (s : State) (a : Word64) (c : BitVec 32) : (s.raisePageFault a c).rip = s.rip := rfl
@[simp] theorem State.raisePageFault_seg (s : State) (a : Word64) (c : BitVec 32) : (s.raisePageFault a c).seg = s.seg := rfl
@[simp] theorem State.raisePageFault_rflags (s : State) (a : Word64) (c : BitVec 32) : (s.raisePageFault a c).rflags = s.rflags := rfl
@[simp] theorem State.raisePageFault_mxcsr (s : State) (a : Word64) (c : BitVec 32) : (s.raisePageFault a c).mxcsr = s.mxcsr := rfl
@[simp] theorem State.raisePageFault_cr0 (s : State) (a : Word64) (c : BitVec 32) : (s.raisePageFault a c).cr0 = s.cr0 := rfl
@[simp] theorem State.raisePageFault_cr2 (s : State) (a : Word64) (c : BitVec 32) : (s.raisePageFault a c).cr2 = a := rfl
@[simp] theorem State.raisePageFault_cr4 (s : State) (a : Word64) (c : BitVec 32) : (s.raisePageFault a c).cr4 = s.cr4 := rfl
@[simp] theorem State.raisePageFault_xcr0 (s : State) (a : Word64) (c : BitVec 32) : (s.raisePageFault a c).xcr0 = s.xcr0 := rfl
@[simp] theorem State.raisePageFault_efer (s : State) (a : Word64) (c : BitVec 32) : (s.raisePageFault a c).efer = s.efer := rfl
@[simp] theorem State.raisePageFault_cpl (s : State) (a : Word64) (c : BitVec 32) : (s.raisePageFault a c).cpl = s.cpl := rfl
@[simp] theorem State.raisePageFault_proc (s : State) (a : Word64) (c : BitVec 32) : (s.raisePageFault a c).proc = s.proc := rfl
@[simp] theorem State.raisePageFault_mem (s : State) (a : Word64) (c : BitVec 32) : (s.raisePageFault a c).mem = s.mem := rfl
@[simp] theorem State.raisePageFault_pages (s : State) (a : Word64) (c : BitVec 32) : (s.raisePageFault a c).pages = s.pages := rfl
@[simp] theorem State.raisePageFault_devices (s : State) (a : Word64) (c : BitVec 32) : (s.raisePageFault a c).devices = s.devices := rfl
@[simp] theorem State.raisePageFault_segRules (s : State) (a : Word64) (c : BitVec 32) : (s.raisePageFault a c).segRules = s.segRules := rfl
@[simp] theorem State.raisePageFault_oracle (s : State) (a : Word64) (c : BitVec 32) : (s.raisePageFault a c).oracle = s.oracle := rfl
@[simp] theorem State.raisePageFault_exception (s : State) (a : Word64) (c : BitVec 32) : (s.raisePageFault a c).exception = some { kind := .pf, errorCode := some c } := rfl
@[simp] theorem State.raisePageFault_reads (s : State) (a : Word64) (c : BitVec 32) : (s.raisePageFault a c).reads = s.reads := rfl
@[simp] theorem State.raisePageFault_draws (s : State) (a : Word64) (c : BitVec 32) : (s.raisePageFault a c).draws = s.draws := rfl
@[simp] theorem State.raisePageFault_mode (s : State) (a : Word64) (c : BitVec 32) : (s.raisePageFault a c).mode = s.mode := rfl
@[simp] theorem State.raisePageFault_vec (s : State) (a : Word64) (c : BitVec 32) (k : BitVec 5) : (s.raisePageFault a c).vec k = s.vec k := rfl

/-! ## Reading a vector register after a write -/

@[simp] theorem State.setVec_vec_same (s : State) (n : BitVec 5) (v : VecReg) : (s.setVec n v).vec n = v := by
  simp [State.vec]

theorem State.setVec_vec_other (s : State) (n k : BitVec 5) (v : VecReg) (h : k ≠ n) :
    (s.setVec n v).vec k = s.vec k := by
  have : n.toNat ≠ k.toNat := fun e => h (BitVec.eq_of_toNat_eq e.symm)
  simp [State.vec, Vector.getElem_set_ne _ _ this]

end Sys2Proof.Machine
end

