-- ==== Sys2Proof/Laws/Vector.lean ====
section
/-!
SUPPORT. The elements of the vector functions (40_unpckhpd_sse_vex.md rule R130, 41_vunpckhpd_evex.md rules R150, R151).
-/
namespace Sys2Proof.Machine

@[simp] theorem elemOf_lt (v : VecReg) (j : Nat) (h : j < 8) : elemOf v j = v[j] := by
  simp [elemOf, h]

@[simp] theorem elemOf_ge (v : VecReg) (j : Nat) (h : 8 ≤ j) : elemOf v j = 0 := by
  have : ¬ j < 8 := by omega
  simp [elemOf, this]

/-- Two vector registers with equal elements are equal. -/
theorem vec_ext (v w : VecReg) (h : ∀ j < 8, elemOf v j = elemOf w j) : v = w := by
  apply Vector.ext
  intro j hj
  simpa [hj] using h j hj

theorem elemOf_ofFn (f : Fin 8 → Word64) (j : Nat) (h : j < 8) : elemOf (Vector.ofFn f) j = f ⟨j, h⟩ := by
  simp [h]

theorem kl_le (vl : VecLen) : vl.kl ≤ 8 := by cases vl <;> decide

theorem kl_even (vl : VecLen) : vl.kl % 2 = 0 := by cases vl <;> rfl

theorem elemOf_interleaveHigh (vl : VecLen) (a b : VecReg) (j : Nat) :
    elemOf (interleaveHigh vl a b) j = if j < vl.kl then interleaved (elemOf a) (elemOf b) j else 0 := by
  have hk := kl_le vl
  by_cases hj : j < 8
  · rw [interleaveHigh, elemOf_ofFn _ _ hj]
    by_cases h : j < vl.kl
    · by_cases he : j % 2 = 0
      · have h1 : j + 1 < 8 := by omega
        simp [h, he, interleaved, h1]
      · simp [h, he, interleaved, hj]
    · simp [h]
  · have h : ¬ j < vl.kl := by omega
    simp [h, Nat.le_of_not_lt hj]

theorem elemOf_broadcast (vl : VecLen) (e : Word64) (j : Nat) :
    elemOf (broadcast vl e) j = if j < vl.kl then e else 0 := by
  have hk := kl_le vl
  by_cases hj : j < 8
  · rw [broadcast, elemOf_ofFn _ _ hj]
  · have h : ¬ j < vl.kl := by omega
    simp [h, Nat.le_of_not_lt hj]

theorem elemOf_zeroUpper (vl : VecLen) (t : VecReg) (j : Nat) :
    elemOf (zeroUpper vl t) j = if j < vl.kl then elemOf t j else 0 := by
  have hk := kl_le vl
  by_cases hj : j < 8
  · rw [zeroUpper, elemOf_ofFn _ _ hj]; simp [hj]
  · have h : ¬ j < vl.kl := by omega
    simp [h, Nat.le_of_not_lt hj]

theorem elemOf_keepUpper (t old : VecReg) (j : Nat) :
    elemOf (keepUpper t old) j = if j < 2 then elemOf t j else elemOf old j := by
  by_cases hj : j < 8
  · rw [keepUpper, elemOf_ofFn _ _ hj]; simp [hj]
  · have h : ¬ j < 2 := by omega
    simp [h, Nat.le_of_not_lt hj]

theorem elemOf_maskWrite (vl : VecLen) (mask : Mask) (ks : Vector Word64 8) (t old : VecReg) (j : Nat) :
    elemOf (maskWrite vl mask ks t old) j = if j < vl.kl then maskedElem mask ks old (elemOf t j) j else 0 := by
  have hk := kl_le vl
  by_cases hj : j < 8
  · rw [maskWrite, elemOf_ofFn _ _ hj]
    by_cases h : j < vl.kl
    · cases mask with
      | none => simp [h, maskSelects, maskedElem, hj]
      | merge k => simp [h, maskSelects, maskedElem, hj]; rfl
      | zero k => simp [h, maskSelects, maskedElem, hj]; rfl
    · simp [h]
  · have h : ¬ j < vl.kl := by omega
    simp [h, Nat.le_of_not_lt hj]

end Sys2Proof.Machine
end

