-- ==== Sys2Proof/Laws/Operands.lean ====
section
/-!
SUPPORT. What the shared operations of one execution can answer: the read of a memory operand, its stops, and the order of
execution (`State.run`); and the value a readable operand has.
-/
namespace Sys2Proof.Machine

/-! ## Little-endian values (20_memory.md R53) -/

theorem getLsbD_bytesToWord (bs : List Byte) (i : Nat) (h : i < 64) :
    (bytesToWord bs).getLsbD i = ((bs[i / 8]?).getD 0).getLsbD (i % 8) := by
  induction bs generalizing i with
  | nil => simp [bytesToWord]
  | cons b bs ih =>
    simp only [bytesToWord, BitVec.getLsbD_or, BitVec.getLsbD_setWidth, BitVec.getLsbD_shiftLeft, h, decide_true,
      Bool.true_and]
    by_cases h8 : i < 8
    · have e1 : i / 8 = 0 := by omega
      have e2 : i % 8 = i := by omega
      simp [h8, e1, e2]
    · have e1 : i / 8 = (i - 8) / 8 + 1 := by omega
      have e2 : i % 8 = (i - 8) % 8 := by omega
      rw [ih (i - 8) (by omega), BitVec.getLsbD_of_ge b i (by omega), e1, e2]
      simp [h8]

/-- Eight bytes that are the bytes of `w`, least significant first, are `w`. -/
theorem bytesToWord_of_bytes (bs : List Byte) (w : Word64) (h : ∀ i < 8, bs[i]? = some (w.extractLsb' (8 * i) 8)) :
    bytesToWord bs = w := by
  apply BitVec.eq_of_getLsbD_eq
  intro i hi
  rw [getLsbD_bytesToWord bs i hi, h (i / 8) (by omega)]
  have : i % 8 < 8 := by omega
  have e : 8 * (i / 8) + i % 8 = i := by omega
  simp [this, e, hi]

theorem elemOf_bytesToVec (bs : List Byte) (j : Nat) (h : j < 8) :
    elemOf (bytesToVec bs) j = bytesToWord ((bs.drop (8 * j)).take 8) := by
  rw [bytesToVec, elemOf_ofFn _ _ h]

theorem operandBytes_length (s : State) (n : SegName) (ea : Word64) (size : Nat) :
    (s.operandBytes n ea size).length = size := by
  simp [State.operandBytes]

theorem operandBytes_getElem (s : State) (n : SegName) (ea : Word64) (off size : Nat) (w : Word64)
    (hw : s.HoldsWord n ea off w) (i : Nat) (hi : i < 8) (hs : off + i < size) :
    (s.operandBytes n ea size)[off + i]? = some (w.extractLsb' (8 * i) 8) := by
  simp [State.operandBytes, hs, (hw i hi).2]

/-- The value of an operand whose words are `v 0`, `v 1`, …: 20_memory.md R51, R53. -/
theorem elemOf_operand (s : State) (n : SegName) (ea : Word64) (words : Nat) (v : Nat → Word64)
    (hw : ∀ q < words, s.HoldsWord n ea (8 * q) (v q)) (j : Nat) (hj : j < 8) :
    elemOf (bytesToVec (s.operandBytes n ea (8 * words))) j = if j < words then v j else 0 := by
  rw [elemOf_bytesToVec _ _ hj]
  by_cases h : j < words
  · rw [if_pos h]
    apply bytesToWord_of_bytes
    intro i hi
    rw [List.getElem?_take, if_pos hi, List.getElem?_drop]
    exact operandBytes_getElem s n ea (8 * j) (8 * words) (v j) (hw j h) i hi (by omega)
  · have : (s.operandBytes n ea (8 * words)).drop (8 * j) = [] := by
      apply List.drop_eq_nil_of_le
      rw [operandBytes_length]
      omega
    rw [if_neg h, this]
    rfl

/-! ## The stops of a memory operand -/

/-- An operand whose bytes all translate has no faulting byte. -/
theorem faultingBytes_nil (s : State) (n : SegName) (ea : Word64) (size : Nat)
    (h : ∀ i < size, ∃ pa, s.translate (s.linear n ea i) = .ok pa) : s.faultingBytes n ea size = [] := by
  rw [State.faultingBytes, List.filterMap_eq_nil_iff]
  intro i hi
  obtain ⟨pa, hp⟩ := h i (List.mem_range.1 hi)
  simp [hp]

theorem mem_faultingBytes (s : State) (n : SegName) (ea : Word64) (size : Nat) (f : Word64 × BitVec 32)
    (h : f ∈ s.faultingBytes n ea size) :
    ∃ i < size, f.1 = s.linear n ea i ∧ s.translate (s.linear n ea i) = .error f.2 := by
  rw [State.faultingBytes, List.mem_filterMap] at h
  obtain ⟨i, hi, hf⟩ := h
  refine ⟨i, List.mem_range.1 hi, ?_⟩
  split at hf
  · cases hf
  · next c hc => cases hf; exact ⟨rfl, hc⟩

/-- A #PF reports one of the faulting bytes (60_exceptions.md R178, R182). -/
theorem pageStop_cases (s : State) (n : SegName) (ea : Word64) (size : Nat) (o : Stop)
    (h : s.pageStop n ea size = some o) :
    ∃ i < size, ∃ code, s.translate (s.linear n ea i) = .error code ∧
      o = .next (s.draw.raisePageFault (s.linear n ea i) code) := by
  simp only [State.pageStop] at h
  split at h
  · cases h
  · next f fs hb =>
    cases h
    have hm : ((f :: fs)[Config.reportedByte s.draws % (f :: fs).length]?).getD f ∈ s.faultingBytes n ea size := by
      rw [hb]
      cases hx : (f :: fs)[Config.reportedByte s.draws % (f :: fs).length]? with
      | none => exact List.mem_cons_self
      | some x => exact List.mem_of_getElem? hx
    obtain ⟨i, hi, h1, h2⟩ := mem_faultingBytes s n ea size _ hm
    exact ⟨i, hi, _, h2, by rw [← h1]⟩

/-- The address checks raise #GP(0) or #SS(0) (60_exceptions.md R177). -/
theorem addressStop_cases (s : State) (k : OperandKind) (n : SegName) (ea : Word64) (size : Nat) (o : Stop)
    (h : s.addressStop k n ea size = some o) :
    ∃ e, (e = .zero .gp ∨ e = .zero .ss) ∧ (o = .next (s.raise e) ∨ o = .next (s.draw.raise e)) := by
  simp only [State.addressStop] at h
  split at h
  · cases h
  · cases h; exact ⟨_, .inl rfl, .inl rfl⟩
  · cases h; exact ⟨_, by unfold segFault; split <;> simp, .inl rfl⟩
  · split at h
    · cases h; exact ⟨_, by split <;> simp, .inr rfl⟩
    · cases h; exact ⟨_, .inl rfl, .inl rfl⟩

/-- Everything a memory operand can stop with. -/
theorem operandStop_cases (s : State) (k : OperandKind) (bits : Nat) (n : SegName) (ea : Word64) (size : Nat) (o : Stop)
    (h : s.operandStop k bits n ea size = some o) :
    o = .refused .operandPastTop ∨
    (∃ e, (e = .zero .gp ∨ e = .zero .ss) ∧ (o = .next (s.raise e) ∨ o = .next (s.draw.raise e))) ∨
    (∃ i < size, ∃ code, s.translate (s.linear n ea i) = .error code ∧
      o = .next (s.draw.raisePageFault (s.linear n ea i) code)) ∨
    o = .fault .alignmentUnknown ∨ o = .next (s.raise (.zero .ac)) ∨
    o = .refused .deviceMemory ∨ o = .refused .memoryAbsent := by
  simp only [State.operandStop] at h
  split at h
  · cases h; exact .inl rfl
  · cases ha : s.addressStop k n ea size with
    | some a =>
      rw [ha] at h; cases h
      exact .inr (.inl (addressStop_cases s k n ea size _ ha))
    | none =>
      rw [ha] at h
      simp only [Option.orElse_none] at h
      cases hp : s.pageStop n ea size with
      | some a =>
        rw [hp] at h; cases h
        exact .inr (.inr (.inl (pageStop_cases s n ea size _ hp)))
      | none =>
        rw [hp] at h
        simp only [Option.orElse_none] at h
        cases hl : s.alignmentStop k (s.linear n ea 0) size with
        | some a =>
          rw [hl] at h; cases h
          simp only [State.alignmentStop] at hl
          split at hl
          · split at hl <;> cases hl
            · exact .inr (.inr (.inr (.inl rfl)))
            · exact .inr (.inr (.inr (.inr (.inl rfl))))
          · cases hl
        | none =>
          rw [hl] at h
          simp only [Option.orElse_none, State.storageStop] at h
          split at h
          · cases h; simp
          · split at h
            · cases h; simp
            · cases h

/-- The byte reads recorded for an operand whose words are `v 0`, `v 1`, …: 20_memory.md R66. -/
theorem loadOf_eq (s : State) (k : OperandKind) (l : Located) (words : Nat) (v : Nat → Word64)
    (hw : ∀ q < words, s.HoldsWord l.seg l.ea (8 * q) (v q)) :
    s.loadOf k l.seg l.ea (8 * words) = s.loadEvents l (s.firstRead k) (8 * words) v := by
  refine List.map_congr_left fun i hi => ?_
  have hi' := List.mem_range.1 hi
  have h := (hw ((s.firstRead k + i) / 8) (by omega) ((s.firstRead k + i) % 8) (by omega)).2
  have e : 8 * ((s.firstRead k + i) / 8) + (s.firstRead k + i) % 8 = s.firstRead k + i := by omega
  rw [e] at h
  simp [h]

/-- With no other writer the read oracle answers with memory's byte (20_memory.md R66). -/
theorem readByte_of_no_writer (s : State) (a : Word64) (h : s.oracle = []) :
    s.readByte a = Memory.read s.mem (s.physical a) := by
  simp [State.readByte, State.oracleAnswer, h]

/-- The record of a read changes only `reads` and `draws`. -/
theorem noteRead_cases (s : State) (k : OperandKind) (n : SegName) (ea : Word64) (size : Nat) :
    ∃ e d, s.noteRead k n ea size = { s with reads := s.reads ++ [e], draws := d } := by
  cases k
  · exact ⟨_, _, rfl⟩
  · exact ⟨_, _, rfl⟩
  · exact ⟨_, _, rfl⟩

/-- Everything the read of a memory operand can answer. -/
theorem readMem_ok (s : State) (k : OperandKind) (size : Nat) (l : Located) (v : VecReg) (t : State)
    (h : s.readMem k size l = .ok (v, t)) :
    s.noVexMode = false ∧ s.operandStop k l.bits l.seg l.ea size = none ∧
      v = bytesToVec (s.operandBytes l.seg l.ea size) ∧ t = s.noteRead k l.seg l.ea size := by
  simp only [State.readMem] at h
  split at h
  · cases h
  · next hm =>
    split at h
    · cases h
    · next hs => cases h; exact ⟨by simpa using hm, hs, rfl, rfl⟩

theorem readMem_error (s : State) (k : OperandKind) (size : Nat) (l : Located) (o : Stop)
    (h : s.readMem k size l = .error o) :
    o = .refused .addr16 ∨ s.operandStop k l.bits l.seg l.ea size = some o := by
  simp only [State.readMem] at h
  split at h
  · cases h; exact .inl rfl
  · split at h
    · next hs => cases h; exact .inr hs
    · cases h

/-- An operand of forms 1 to 6 that is addressable, aligned and held by memory passes every check. -/
theorem operandStop_of_readable (s : State) (k : OperandKind) (l : Located) (words : Nat) (v : Nat → Word64)
    (h : s.Readable k l words v) : s.operandStop k l.bits l.seg l.ea (8 * words) = none := by
  have hb : ∀ i < 8 * words, ∃ pa b, s.translate (s.linear l.seg l.ea i) = .ok pa ∧ s.isDevice pa = false ∧
      Memory.read s.mem pa = some b := by
    intro i hi
    obtain ⟨⟨pa, h1, h2⟩, h3⟩ := h.holds (i / 8) (by omega) (i % 8) (by omega)
    have e : 8 * (i / 8) + i % 8 = i := by omega
    rw [e] at h1 h3
    obtain ⟨b, h4, -⟩ := Option.map_eq_some_iff.1 h3
    exact ⟨pa, b, h1, h2, by simpa [State.physical, h1] using h4⟩
  have htop : pastTop l.bits l.ea (8 * words) = false := by
    simp only [pastTop, decide_eq_false_iff_not]
    have := h.addressable.top
    omega
  have hmis : misaligned16 k (s.linear l.seg l.ea 0) = false := by
    cases k
    · have := h.aligned
      simp only [State.Aligned] at this
      simp only [misaligned16, bne_eq_false_iff_eq]
      apply BitVec.eq_of_toNat_eq
      simpa using this
    · rfl
    · rfl
  have hpage := faultingBytes_nil s l.seg l.ea (8 * words) fun i hi => by
    obtain ⟨pa, _, h1, _⟩ := hb i hi
    exact ⟨pa, h1⟩
  have hal : s.alignmentStop k (s.linear l.seg l.ea 0) (8 * words) = none := by
    simp only [State.alignmentStop]
    split
    · next hc =>
      simp only [Bool.and_eq_true, decide_eq_true_eq] at hc
      cases k
      · rfl
      · exact absurd (h.aligned hc.1) hc.2
      · exact absurd (h.aligned hc.1) hc.2
    · rfl
  have hst : s.storageStop k l.seg l.ea (8 * words) = none := by
    have h1 : (List.range (8 * words)).any (fun i => s.isDevice (s.physical (s.linear l.seg l.ea i))) = false := by
      rw [List.any_eq_false]
      intro i hi
      obtain ⟨pa, _, ht, hd, _⟩ := hb i (List.mem_range.1 hi)
      simp [State.physical, ht, hd]
    have h2 : (List.range (8 * words)).any
        (fun i => (Memory.read s.mem (s.physical (s.linear l.seg l.ea i))).isNone && decide (s.firstRead k ≤ i)) = false := by
      rw [List.any_eq_false]
      intro i hi
      obtain ⟨pa, b, ht, _, hm⟩ := hb i (List.mem_range.1 hi)
      simp [State.physical, ht, hm]
    simp [State.storageStop, h1, h2]
  simp [State.operandStop, htop, State.addressStop, hmis, h.addressable.address, State.pageStop, hpage, hal, hst]

/-- Reading a readable operand answers its words and records the read. -/
theorem readMem_of_readable (s : State) (k : OperandKind) (l : Located) (words : Nat) (v : Nat → Word64)
    (h : s.Readable k l words v) :
    s.readMem k (8 * words) l =
      .ok (bytesToVec (s.operandBytes l.seg l.ea (8 * words)), s.noteRead k l.seg l.ea (8 * words)) := by
  have hm : s.noVexMode = false := by
    rcases h.addressable.mode with e | e <;> simp [State.noVexMode, e]
  simp [State.readMem, hm, operandStop_of_readable s k l words v h]

/-! ## One execution -/

/-- Everything `State.run` can answer with a next state: the gate's exception, a stop of the second source that is a next state, or
the completed instruction. -/
theorem run_next (s : State) (g : Option ExcKind) (src2 : Except Stop (VecReg × State)) (f : VecReg → State → State)
    (t : State) :
    s.run g src2 f = .next t ↔
      s.mode ≠ .prot16 ∧
        ((∃ k, g = some k ∧ t = s.raise (.plain k)) ∨
          (g = none ∧ (src2 = .error (.next t) ∨ ∃ b s', src2 = .ok (b, s') ∧ t = f b s'))) := by
  unfold State.run
  split
  · next h => simp [h]
  · next h =>
    cases g with
    | some k => simp [h, eq_comm]
    | none =>
      rcases src2 with o | ⟨b, s'⟩
      · simp [h]
      · simp only [h, not_false_eq_true, true_and, Host.Outcome.next.injEq, Except.ok.injEq, Prod.mk.injEq,
          reduceCtorEq, false_and, exists_false, false_or, ne_eq]
        exact ⟨fun e => ⟨b, s', ⟨rfl, rfl⟩, e.symm⟩, fun ⟨_, _, ⟨h1, h2⟩, e⟩ => by rw [e, h1, h2]⟩

/-- With the gate open and the second source read, the instruction completes. -/
theorem run_ok (s : State) (b : VecReg) (s' : State) (f : VecReg → State → State) (hm : s.mode ≠ .prot16) :
    s.run none (.ok (b, s')) f = .next (f b s') := by
  simp [State.run, hm]

/-- A gate that is closed raises its exception, whatever the operands are. -/
theorem run_gate (s : State) (k : ExcKind) (src2 : Except Stop (VecReg × State)) (f : VecReg → State → State)
    (hm : s.mode ≠ .prot16) : s.run (some k) src2 f = .next (s.raise (.plain k)) := by
  simp [State.run, hm]

/-- The gate: #UD first, then #NM, else open (60_exceptions.md R181). -/
theorem gate_cases (s : State) (ud : Bool) :
    (ud = true ∧ s.gate ud = some .ud) ∨ (ud = false ∧ s.ts = true ∧ s.gate ud = some .nm) ∨
      (ud = false ∧ s.ts = false ∧ s.gate ud = none) := by
  cases ud <;> cases h : s.ts <;> simp [State.gate, h]

/-- What `avxState` says of XCR0 (10_state.md R31). -/
theorem avxState_iff (s : State) : s.avxState = true ↔ s.proc.hasXSAVE = true ∧ s.xcr0.extractLsb' 1 2 = 3#2 := by
  rw [State.avxState, State.xcr0Bit, State.xcr0Bit]
  constructor
  · intro h
    simp only [Bool.and_eq_true] at h
    exact ⟨h.1.1, BitVec.eq_of_getLsbD_eq fun i hi => by interval_cases i <;> simp [h.1.2, h.2.2]⟩
  · rintro ⟨hx, h⟩
    have h0 : (s.xcr0.extractLsb' 1 2).getLsbD 0 = true := by rw [h]; decide
    have h1 : (s.xcr0.extractLsb' 1 2).getLsbD 1 = true := by rw [h]; decide
    clear h
    simp_all

/-- What `zmmState` says of XCR0 (10_state.md R31). -/
theorem zmmState_iff (s : State) : s.zmmState = true ↔ s.proc.hasXSAVE = true ∧ s.xcr0.extractLsb' 5 3 = 7#3 := by
  rw [State.zmmState, State.xcr0Bit, State.xcr0Bit, State.xcr0Bit]
  constructor
  · intro h
    simp only [Bool.and_eq_true] at h
    exact ⟨h.1.1.1, BitVec.eq_of_getLsbD_eq fun i hi => by interval_cases i <;> simp [h.1.1.2, h.1.2.2, h.2.2]⟩
  · rintro ⟨hx, h⟩
    have h0 : (s.xcr0.extractLsb' 5 3).getLsbD 0 = true := by rw [h]; decide
    have h1 : (s.xcr0.extractLsb' 5 3).getLsbD 1 = true := by rw [h]; decide
    have h2 : (s.xcr0.extractLsb' 5 3).getLsbD 2 = true := by rw [h]; decide
    clear h
    simp_all

end Sys2Proof.Machine
end

