-- ==== Sys2Proof/Laws/PerInstr.lean ====
section
/-!
SUPPORT. Statements about every instruction as syntax, one lemma per constructor. `LengthAgrees`: the bytes the encoder writes are as
many as `Instr.length` says (30_encoding.md rule R108).
-/
namespace Sys2Proof

@[simp] theorem d32Bytes_length (d : BitVec 32) : (d32Bytes d).length = 4 := rfl

@[simp] theorem Disp.bytes_length (d : Disp) : d.bytes.length = d.length := by
  cases d <;> rfl

@[simp] theorem MemOperand.bytes_length (g : BitVec 3) (m : MemOperand) : (m.bytes g).length = m.length := by
  cases m <;> simp [MemOperand.bytes, MemOperand.length] <;> omega

@[simp] theorem RegMem.bytes_length (g : BitVec 3) (o : RegMem) : (o.bytes g).length = o.length := by
  cases o <;> simp [RegMem.bytes, RegMem.length]

@[simp] theorem RegMemBcst.bytes_length (g : BitVec 3) (o : RegMemBcst) : (o.bytes g).length = o.length := by
  cases o <;> simp [RegMemBcst.bytes, RegMemBcst.length]

@[simp] theorem Prefixes.bytes_length (p : Prefixes) : p.bytes.length = p.length := by
  obtain ⟨s, a, r⟩ := p
  cases s <;> cases a <;> simp [Prefixes.bytes, Prefixes.length] <;> omega

end Sys2Proof

namespace Sys2Proof.Laws.LengthAgrees

/-- The encoding of `i` has `i.length` bytes. -/
def Statement (i : Instr) : Prop := (encode i).length = i.length

theorem unpckhpd (p : Prefixes) (dest : BitVec 5) (src2 : RegMem) : Statement (.unpckhpd p dest src2) := by
  simp [Statement, encode, Instr.length]; omega

theorem unpckhpdRex (p : Prefixes) (dest : BitVec 5) (src2 : RegMem) : Statement (.unpckhpdRex p dest src2) := by
  simp [Statement, encode, Instr.length]; omega

theorem vunpckhpd128C5 (p : Prefixes) (dest src1 : BitVec 5) (src2 : RegMem) :
    Statement (.vunpckhpd128C5 p dest src1 src2) := by
  simp [Statement, encode, encodeC5, Instr.length]; omega

theorem vunpckhpd128C4 (p : Prefixes) (dest src1 : BitVec 5) (src2 : RegMem) :
    Statement (.vunpckhpd128C4 p dest src1 src2) := by
  simp [Statement, encode, encodeC4, Instr.length]; omega

theorem vunpckhpd256C5 (p : Prefixes) (dest src1 : BitVec 5) (src2 : RegMem) :
    Statement (.vunpckhpd256C5 p dest src1 src2) := by
  simp [Statement, encode, encodeC5, Instr.length]; omega

theorem vunpckhpd256C4 (p : Prefixes) (dest src1 : BitVec 5) (src2 : RegMem) :
    Statement (.vunpckhpd256C4 p dest src1 src2) := by
  simp [Statement, encode, encodeC4, Instr.length]; omega

theorem vunpckhpdEvex128 (p : Prefixes) (dest : BitVec 5) (mask : Mask) (src1 : BitVec 5) (src2 : RegMemBcst) :
    Statement (.vunpckhpdEvex128 p dest mask src1 src2) := by
  simp [Statement, encode, encodeEvex, Instr.length]; omega

theorem vunpckhpdEvex256 (p : Prefixes) (dest : BitVec 5) (mask : Mask) (src1 : BitVec 5) (src2 : RegMemBcst) :
    Statement (.vunpckhpdEvex256 p dest mask src1 src2) := by
  simp [Statement, encode, encodeEvex, Instr.length]; omega

theorem vunpckhpdEvex512 (p : Prefixes) (dest : BitVec 5) (mask : Mask) (src1 : BitVec 5) (src2 : RegMemBcst) :
    Statement (.vunpckhpdEvex512 p dest mask src1 src2) := by
  simp [Statement, encode, encodeEvex, Instr.length]; omega

end Sys2Proof.Laws.LengthAgrees
end

