-- ==== Sys2Proof/Tests/Slice0.lean ====
section
/-!
SUPPORT. Tests: the checks of WellFormed, words written out from the spec's encodings, one-step tests with the values of
95_test_vectors.md, and a witness for the hypotheses of every obligation that has some.
-/
namespace Sys2Proof.Tests
open Sys2Proof Sys2Proof.Machine

/-- No legacy prefix. -/
def np : Prefixes := ⟨none, false, 0⟩

/-! ## WellFormed refuses an ill-formed term, one for each check -/

theorem test_wf_dest : (Instr.unpckhpd np 8 (.reg 0)).wellFormed .long64 = false := by decide
theorem test_wf_rex_needs_long64 : (Instr.unpckhpdRex np 9 (.reg 0)).wellFormed .prot32 = false := by decide
theorem test_wf_rex_dest : (Instr.unpckhpdRex np 16 (.reg 0)).wellFormed .long64 = false := by decide
theorem test_wf_vex_src1 : (Instr.vunpckhpd128C5 np 0 16 (.reg 0)).wellFormed .long64 = false := by decide
theorem test_wf_vex_c5_src2 : (Instr.vunpckhpd256C5 np 0 0 (.reg 8)).wellFormed .long64 = false := by decide
theorem test_wf_vex_c4_prot32 : (Instr.vunpckhpd256C4 np 8 0 (.reg 0)).wellFormed .prot32 = false := by decide
theorem test_wf_vex_redundant : (Instr.vunpckhpd128C4 ⟨none, false, 1⟩ 0 0 (.reg 0)).wellFormed .long64 = false := by decide
theorem test_wf_vex_mode : (Instr.vunpckhpd128C4 np 0 0 (.reg 0)).wellFormed .v86 = false := by decide
theorem test_wf_evex_src2_prot32 : (Instr.vunpckhpdEvex128 np 0 .none 0 (.reg 8)).wellFormed .prot32 = false := by decide
theorem test_wf_mask_k0 : (Instr.vunpckhpdEvex512 np 0 (.zero 0) 0 (.reg 0)).wellFormed .long64 = false := by decide
theorem test_wf_mask_merge_k0 : (Instr.vunpckhpdEvex256 np 0 (.merge 0) 0 (.reg 0)).wellFormed .long64 = false := by decide
theorem test_wf_base_is_sib : (Instr.unpckhpd np 0 (.mem (.base 4 .none))).wellFormed .long64 = false := by decide
theorem test_wf_base_bound : (Instr.unpckhpd np 0 (.mem (.base 8 .none))).wellFormed .long64 = false := by decide
theorem test_wf_base_disp : (Instr.unpckhpd np 0 (.mem (.base 5 .none))).wellFormed .long64 = false := by decide
theorem test_wf_index_rsp : (Instr.unpckhpd np 0 (.mem (.sib 0 (some (4, 0)) .none))).wellFormed .long64 = false := by decide
theorem test_wf_index_bound :
    (Instr.vunpckhpd128C5 np 0 0 (.mem (.sibNoBase (some (8, 0)) 0))).wellFormed .long64 = false := by decide
theorem test_wf_bcst_bound : (Instr.vunpckhpdEvex256 np 0 .none 0 (.bcst (.base 8 .none))).wellFormed .prot32 = false := by
  decide
theorem test_wf_addr32 : (Instr.unpckhpd ⟨none, true, 0⟩ 0 (.reg 0)).wellFormed .prot32 = false := by decide
theorem test_wf_real_memory : (Instr.unpckhpd np 0 (.mem (.base 0 .none))).wellFormed .real = false := by decide
theorem test_wf_prot16 : (Instr.unpckhpd np 0 (.reg 0)).wellFormed .prot16 = false := by decide
theorem test_wf_length : (Instr.unpckhpd ⟨none, false, 12⟩ 0 (.reg 0)).wellFormed .long64 = false := by decide
theorem test_wf_length_15 : (Instr.unpckhpd ⟨none, false, 11⟩ 0 (.reg 0)).wellFormed .long64 = true := by decide

/-! ## Words written out from the encodings (30_encoding.md; 95_test_vectors.md sections 3.1 to 3.4) -/

/-- Form 1: `66 0F 15 C1` is `unpckhpd xmm0, xmm1`. -/
theorem test_decode_unpckhpd : decode .long64 [0x66, 0x0F, 0x15, 0xC1] = .ok (.unpckhpd np 0 (.reg 1), []) := rfl
/-- SIB: scale 4, index rcx, base rbx, disp8 10H. -/
theorem test_decode_unpckhpd_sib : decode .long64 [0x66, 0x0F, 0x15, 0x54, 0x8B, 0x10] =
    .ok (.unpckhpd np 2 (.mem (.sib 3 (some (1, 2)) (.d8 0x10))), []) := rfl
/-- `66 44 0F 15 78 F0` is `unpckhpd xmm15, [rax-0x10]`. -/
theorem test_decode_unpckhpdRex : decode .long64 [0x66, 0x44, 0x0F, 0x15, 0x78, 0xF0] =
    .ok (.unpckhpdRex np 15 (.mem (.base 0 (.d8 0xF0))), []) := rfl
/-- `66 48 0F 15 C1`: REX.W has no effect (A8). -/
theorem test_decode_rex_w : decode .long64 [0x66, 0x48, 0x0F, 0x15, 0xC1] = .ok (.unpckhpdRex np 0 (.reg 1), []) := rfl
/-- `C5 E9 15 CB` is `vunpckhpd xmm1, xmm2, xmm3`. -/
theorem test_decode_128C5 : decode .long64 [0xC5, 0xE9, 0x15, 0xCB] = .ok (.vunpckhpd128C5 np 1 2 (.reg 3), []) := rfl
/-- `C4 E1 E9 15 CB`, W = 1, is the same operation. -/
theorem test_decode_128C4 : decode .long64 [0xC4, 0xE1, 0xE9, 0x15, 0xCB] = .ok (.vunpckhpd128C4 np 1 2 (.reg 3), []) := rfl
/-- `C5 FD 15 10` is `vunpckhpd ymm2, ymm0, [rax]`. -/
theorem test_decode_256C5 : decode .long64 [0xC5, 0xFD, 0x15, 0x10] =
    .ok (.vunpckhpd256C5 np 2 0 (.mem (.base 0 .none)), []) := rfl
/-- `C4 41 25 15 D4` is `vunpckhpd ymm10, ymm11, ymm12`. -/
theorem test_decode_256C4 : decode .long64 [0xC4, 0x41, 0x25, 0x15, 0xD4] = .ok (.vunpckhpd256C4 np 10 11 (.reg 12), []) := rfl
/-- `62 E1 ED 08 15 C3` is `vunpckhpd xmm16, xmm2, xmm3`. -/
theorem test_decode_evex128 : decode .long64 [0x62, 0xE1, 0xED, 0x08, 0x15, 0xC3] =
    .ok (.vunpckhpdEvex128 np 16 .none 2 (.reg 3), []) := rfl
/-- RIP-relative broadcast, disp32 little-endian. -/
theorem test_decode_evex256 : decode .long64 [0x62, 0xF1, 0xCD, 0x39, 0x15, 0x2D, 0x00, 0x01, 0x00, 0x00] =
    .ok (.vunpckhpdEvex256 np 5 (.merge 1) 6 (.bcst (.disp32 0x100)), []) := rfl
/-- `62 81 F5 4A 15 CE` is `vunpckhpd zmm17{k2}, zmm1, zmm30`. -/
theorem test_decode_evex512 : decode .long64 [0x62, 0x81, 0xF5, 0x4A, 0x15, 0xCE] =
    .ok (.vunpckhpdEvex512 np 17 (.merge 2) 1 (.reg 30), []) := rfl
/-- A row of the table in the table's own numbering: C5, then F9H, 15H and ModRM 00H, the first byte most significant. -/
theorem test_decode_table_word : decodeTableWord 32 0xC5F91500 = some (.vunpckhpd128C5 np 0 0 (.mem (.base 0 .none))) := by
  decide
/-- F21 to F26: EVEX settings that are #UD. -/
theorem test_decode_evex_illegal :
    decode .long64 [0x62, 0xF1, 0xED, 0x58, 0x15, 0xCB] = .error .invalidOpcode ∧
    decode .long64 [0x62, 0xF1, 0xED, 0xC8, 0x15, 0xCB] = .error .invalidOpcode ∧
    decode .long64 [0x62, 0xF1, 0x6D, 0x48, 0x15, 0xCB] = .error .invalidOpcode ∧
    decode .long64 [0x62, 0xF1, 0xED, 0x68, 0x15, 0xCB] = .error .invalidOpcode ∧
    decode .long64 [0x62, 0xF9, 0xED, 0x48, 0x15, 0xCB] = .error .invalidOpcode ∧
    decode .long64 [0x62, 0xF5, 0xED, 0x48, 0x15, 0xCB] = .error .invalidOpcode ∧
    decode .long64 [0x62, 0xF1, 0xE9, 0x48, 0x15, 0xCB] = .error .invalidOpcode := by
  exact ⟨rfl, rfl, rfl, rfl, rfl, rfl, rfl⟩
/-- F8, F9, F14, F27: a byte before the form that makes it #UD. -/
theorem test_decode_bad_prefix :
    decode .long64 [0xF0, 0x66, 0x0F, 0x15, 0x10] = .error .invalidOpcode ∧
    decode .long64 [0x66, 0xF3, 0x0F, 0x15, 0xC1] = .error .invalidOpcode ∧
    decode .long64 [0x66, 0xC5, 0xE9, 0x15, 0xCB] = .error .invalidOpcode ∧
    decode .long64 [0x48, 0xC5, 0xE9, 0x15, 0xCB] = .error .invalidOpcode ∧
    decode .long64 [0xF0, 0x62, 0xF1, 0xED, 0x48, 0x15, 0x08] = .error .invalidOpcode := by
  exact ⟨rfl, rfl, rfl, rfl, rfl⟩
/-- R68: LOCK before a VEX form under 67H in `Prot32`; 67H alone is refused. -/
theorem test_decode_lock_under_67 :
    decode .prot32 [0xF0, 0x67, 0xC5, 0xE9, 0x15, 0xCB] = .error .invalidOpcode ∧
    decode .prot32 [0x67, 0xC5, 0xE9, 0x15, 0xCB] = .error (.refusedForm (.vex .v128) .addr16) := by
  exact ⟨rfl, rfl⟩
/-- R181: sixteen bytes with W = 0 in the EVEX prefix are too long, not #UD. -/
theorem test_decode_length_first :
    decode .long64 (List.replicate 10 0x66 ++ [0x62, 0xF1, 0x6D, 0x48, 0x15, 0xCB]) = .error .tooLong := rfl
/-- `62 F2 ED 48 15 CB` (mm = 10b) is another instruction (section 5, R85). -/
theorem test_decode_other_map : decode .long64 [0x62, 0xF2, 0xED, 0x48, 0x15, 0xCB] = .error .otherInstruction := rfl

/-! ## One step -/

/-- Register `r` of the pattern of 95_test_vectors.md section 2. -/
def pat (r : Nat) : VecReg := Vector.ofFn fun q => BitVec.ofNat 64 ((0xA0 + r) * 2 ^ 56 + r * 256 + q.val)

/-- The launch state of section 2, gates open, rax = 2000H; r8 and r9 for the witnesses. -/
def launch : State :=
  { State.reset.toLong64 with
    cr4 := 0x40200, xcr0 := 0xE7, rip := 0x1000, zmm := Vector.ofFn fun r => pat r.val
    gpr := #v[0x2000, 4, 0, 0x2000, 0, 0x0000800000000000, 0, 0, 0x2040, 0x00007FFFFFFFFFF0, 0, 0, 0, 0, 0, 0]
    opmask := #v[0, 0x05, 0xA5, 0x0A, 0xFF00, 0x6E, 0, 0x02] }

/-- The 64 bytes at 2000H: quadword i is E000000000000000H + i. -/
def data : Memory :=
  (List.range 8).flatMap fun i =>
    [(0x2000 + 8 * i, BitVec.ofNat 8 i), (0x2001 + 8 * i, 0), (0x2002 + 8 * i, 0), (0x2003 + 8 * i, 0), (0x2004 + 8 * i, 0),
      (0x2005 + 8 * i, 0), (0x2006 + 8 * i, 0), (0x2007 + 8 * i, 0xE0)]

/-- The launch state with the data and instruction bytes at rip. -/
def withCode (bs : List Byte) : State := { launch with mem := data }.placeCode 0 bs

/-- Register `d` and rip after a step that completes. -/
def after (o : Stop) (d : BitVec 5) : Option (VecReg × Word64) :=
  match o with
  | .next t => if t.exception = none then some (t.vec d, t.rip) else none
  | _ => none

/-- The exception and rip after a step that raises one. -/
def raised (o : Stop) : Option (Exception × Word64) :=
  match o with
  | .next t => t.exception.map fun e => (e, t.rip)
  | _ => none

/-- The memory of the tests is canonical. -/
theorem test_data_wf : Memory.wf data = true := by decide

/-- A1: elements 7..2 are kept. -/
theorem test_step_unpckhpd : after (step (withCode [0x66, 0x0F, 0x15, 0xC1])) 0 =
    some (#v[0xA000000000000001, 0xA100000000000101, 0xA000000000000002, 0xA000000000000003, 0xA000000000000004,
      0xA000000000000005, 0xA000000000000006, 0xA000000000000007], 0x1004) := by decide
/-- A3: the quadword at 2008H is the second source. -/
theorem test_step_unpckhpd_mem : after (step (withCode [0x66, 0x0F, 0x15, 0x10])) 2 =
    some (#v[0xA200000000000201, 0xE000000000000001, 0xA200000000000202, 0xA200000000000203, 0xA200000000000204,
      0xA200000000000205, 0xA200000000000206, 0xA200000000000207], 0x1004) := by decide
/-- A7: registers above 7. -/
theorem test_step_unpckhpdRex : after (step (withCode [0x66, 0x45, 0x0F, 0x15, 0xCC])) 9 =
    some (#v[0xA900000000000901, 0xAC00000000000C01, 0xA900000000000902, 0xA900000000000903, 0xA900000000000904,
      0xA900000000000905, 0xA900000000000906, 0xA900000000000907], 0x1005) := by decide
/-- B1: bits [511:128] are zeroed. -/
theorem test_step_128C5 : after (step (withCode [0xC5, 0xE9, 0x15, 0xCB])) 1 =
    some (#v[0xA200000000000201, 0xA300000000000301, 0, 0, 0, 0, 0, 0], 0x1004) := by decide
/-- B3: three-byte prefix, W = 1. -/
theorem test_step_128C4 : after (step (withCode [0xC4, 0xE1, 0xE9, 0x15, 0xCB])) 1 =
    some (#v[0xA200000000000201, 0xA300000000000301, 0, 0, 0, 0, 0, 0], 0x1005) := by decide
/-- B4: all three operands are the same register. -/
theorem test_step_256C5 : after (step (withCode [0xC5, 0xF5, 0x15, 0xC9])) 1 =
    some (#v[0xA100000000000101, 0xA100000000000101, 0xA100000000000103, 0xA100000000000103, 0, 0, 0, 0], 0x1004) := by decide
/-- B5: lanes do not mix. -/
theorem test_step_256C4 : after (step (withCode [0xC4, 0x41, 0x25, 0x15, 0xD4])) 10 =
    some (#v[0xAB00000000000B01, 0xAC00000000000C01, 0xAB00000000000B03, 0xAC00000000000C03, 0, 0, 0, 0], 0x1005) := by decide
/-- C6: merging under k2 = A5H, bits above VL zeroed all the same. -/
theorem test_step_evex128 : after (step (withCode [0x62, 0xF1, 0xED, 0x0A, 0x15, 0xCB])) 1 =
    some (#v[0xA200000000000201, 0xA100000000000101, 0, 0, 0, 0, 0, 0], 0x1006) := by decide
/-- C11: broadcast with zeroing under k7 = 02H, disp8 * 8. -/
theorem test_step_evex128_bcst : after (step (withCode [0x62, 0xF1, 0xED, 0x9F, 0x15, 0x48, 0x01])) 1 =
    some (#v[0, 0xE000000000000001, 0, 0, 0, 0, 0, 0], 0x1007) := by decide
/-- C7: zeroing under k1 = 05H. -/
theorem test_step_evex256 : after (step (withCode [0x62, 0xF1, 0xED, 0xA9, 0x15, 0xCB])) 1 =
    some (#v[0xA200000000000201, 0, 0xA200000000000203, 0, 0, 0, 0, 0], 0x1006) := by decide
/-- C10: merging memory operand under k3 = 0AH, disp8 * 32. -/
theorem test_step_evex256_mem : after (step (withCode [0x62, 0xF1, 0xED, 0x2B, 0x15, 0x48, 0x01])) 1 =
    some (#v[0xA100000000000100, 0xE000000000000005, 0xA100000000000102, 0xE000000000000007, 0, 0, 0, 0], 0x1007) := by decide
/-- C5: registers above 15 under k2 = A5H. -/
theorem test_step_evex512 : after (step (withCode [0x62, 0x81, 0xF5, 0x4A, 0x15, 0xCE])) 17 =
    some (#v[0xA100000000000101, 0xB100000000001101, 0xA100000000000103, 0xB100000000001103, 0xB100000000001104,
      0xBE00000000001E05, 0xB100000000001106, 0xBE00000000001E07], 0x1006) := by decide
/-- C4: only mask bits [7:0] count. -/
theorem test_step_evex512_mask : after (step (withCode [0x62, 0xF1, 0xED, 0x4C, 0x15, 0xCB])) 1 = some (pat 1, 0x1006) := by
  decide
/-- F16: base RBP selects SS, not canonical: #SS(0), rip unchanged. -/
theorem test_step_ss : raised (step (withCode [0xC5, 0xF9, 0x15, 0x45, 0x00])) = some (.zero .ss, 0x1000) := by decide
/-- R31: without XSAVE there is no XCR0, and `C5 E9 15 CB` raises #UD (log 34). -/
theorem test_step_no_xsave :
    raised (step { withCode [0xC5, 0xE9, 0x15, 0xCB] with proc := { launch.proc with hasXSAVE := false } }) =
      some (.plain .ud, 0x1000) := by decide

/-- F18: XCR0 = 7 is not enough for EVEX. -/
theorem test_step_xcr0 : raised (step { withCode [0x62, 0xF1, 0xED, 0x48, 0x15, 0xCB] with xcr0 := 7 }) =
    some (.plain .ud, 0x1000) := by decide

/-! ## Witnesses: states and operands that meet the hypotheses of each obligation together -/

/-- The launch state with the data at 2000H. -/
def live : State := { launch with mem := data }

/-- The same state in `Prot32`: CS.D = 1, EFER.LMA = 0, DS and SS flat but for a limit of 2FFFH. -/
def live32 : State :=
  { live with
    efer := 0
    seg := #v[SegReg.reset, { SegReg.resetCS with big := true },
      { SegReg.reset with selector := 8, limit := 0x2FFF }, { SegReg.reset with selector := 8, limit := 0x2FFF },
      SegReg.reset, SegReg.reset] }

/-- The launch state with alignment checking enabled (20_memory.md R63). -/
def liveAc : State := { live with cr0 := live.cr0 ||| 0x40000, rflags := 0x40002, cpl := 3 }

/-- A page that faults for every read: not present. -/
def absentPage (n : Nat) : PageRule := ⟨n, .fault false false false, .fault false false false⟩

/-- Any EVEX or VEX encoding with every field at a boundary. -/
def farIndexed : MemOperand := .sib 13 (some (15, 3)) (.d32 0x80000000)

theorem witness_wellFormed :
    (Instr.vunpckhpdEvex512 ⟨some .gs, true, 0⟩ 31 (.zero 7) 17 (.bcst farIndexed)).wellFormed .long64 = true := by decide

/-- DecodeEncodeRoundTrip. -/
theorem witness_DecodeEncodeRoundTrip : (Instr.unpckhpdRex ⟨some .es, true, 0⟩ 15 (.mem farIndexed)).wellFormed .long64 = true ∧
    (Instr.vunpckhpd256C4 np 7 7 (.mem (.disp32 0))).wellFormed .prot32 = true ∧
    (Instr.unpckhpd np 7 (.reg 7)).wellFormed .real = true := by decide

/-- DecodeGivesWellFormed and DecodeConsumesLength. -/
theorem witness_DecodeGivesWellFormed : decode .prot32 [0xC5, 0xE9, 0x15, 0xCB, 0x90] =
    .ok (.vunpckhpd128C5 np 1 2 (.reg 3), [0x90]) := rfl
theorem witness_DecodeConsumesLength : decode .long64 [0x62, 0xE1, 0xED, 0x08, 0x15, 0xC3, 0x90] =
    .ok (.vunpckhpdEvex128 np 16 .none 2 (.reg 3), [0x90]) := rfl

/-- EvexIllegalSettingsRejected, one byte string for each clause, the other fields legal; the operand a register (CBH) or memory (48H)
with five bytes behind it. -/
theorem witness_EvexIllegalSettingsRejected :
    (0xCB#8).extractLsb' 6 2 = 3 ∧ (0x48#8).extractLsb' 6 2 ≠ 3 ∧ 5 ≤ [0x01#8, 0, 0, 0, 0].length ∧
    (0xF9#8).extractLsb' 2 2 ≠ 0 ∧ (0xE9#8).getLsbD 2 = false ∧ (0xF0#8).extractLsb' 0 2 = 0 ∧
    ((0xF1#8).extractLsb' 0 2 = 1 ∧ (0x6D#8).extractLsb' 0 2 = 1 ∧ (0x6D#8).getLsbD 7 = false) ∧
    ((0xED#8).extractLsb' 0 2 = 1 ∧ (0x68#8).extractLsb' 5 2 = 3) ∧
    ((0xC8#8).getLsbD 7 = true ∧ (0xC8#8).extractLsb' 0 3 = 0) ∧ (0x58#8).getLsbD 4 = true := by decide

/-- ByteBeforeVexIsInvalid: a REX byte before and after the segment override of an EVEX form, a 66H byte in `Prot32`. -/
theorem witness_ByteBeforeVexIsInvalid :
    (Instr.vunpckhpdEvex512 ⟨some .fs, true, 0⟩ 1 .none 2 (.reg 3)).wellFormed .long64 = true ∧
    (Instr.vunpckhpdEvex512 ⟨some .fs, true, 0⟩ 1 .none 2 (.reg 3)).length ≤ 14 ∧ (0x48#8).extractLsb' 4 4 = 4 ∧
    2 ≤ (Instr.vunpckhpdEvex512 ⟨some .fs, true, 0⟩ 1 .none 2 (.reg 3)).pfx.length ∧
    (Instr.vunpckhpd128C5 ⟨some .es, false, 0⟩ 1 2 (.mem (.base 0 .none))).wellFormed .prot32 = true ∧
    (Instr.vunpckhpd128C5 ⟨some .es, false, 0⟩ 1 2 (.mem (.base 0 .none))).length ≤ 13 ∧
    ∀ p d o, Instr.vunpckhpdEvex512 ⟨some .fs, true, 0⟩ 1 .none 2 (.reg 3) ≠ .unpckhpd p d o ∧
      Instr.vunpckhpdEvex512 ⟨some .fs, true, 0⟩ 1 .none 2 (.reg 3) ≠ .unpckhpdRex p d o :=
  ⟨by decide, by decide, by decide, by decide, by decide, by decide, fun _ _ _ => ⟨nofun, nofun⟩⟩

/-- ByteBeforeForm1IsInvalid, at the greatest length and the last place. -/
theorem witness_ByteBeforeForm1IsInvalid :
    (Instr.unpckhpd ⟨none, false, 10⟩ 0 (.reg 1)).wellFormed .real = true ∧
    (Instr.unpckhpd ⟨none, false, 10⟩ 0 (.reg 1)).length = 14 ∧
    11 ≤ (Instr.unpckhpd ⟨none, false, 10⟩ 0 (.reg 1)).pfx.length + 1 ∧
    ∃ p d o, Instr.unpckhpd ⟨none, false, 10⟩ 0 (.reg 1) = .unpckhpd p d o ∨
      Instr.unpckhpd ⟨none, false, 10⟩ 0 (.reg 1) = .unpckhpdRex p d o :=
  ⟨by decide, by decide, by decide, _, _, _, .inl rfl⟩

/-- NeighboursAreNotTheInstruction, each clause. -/
theorem witness_NeighboursAreNotTheInstruction :
    ((0xC1#8).extractLsb' 6 2 = 3 ∧ (0xE1#8).extractLsb' 0 5 = 1 ∧ (0xED#8).getLsbD 2 = true) ∧ (0xE8#8).extractLsb' 0 2 = 0 ∧
    (0xEA#8).extractLsb' 0 2 = 2 ∧ (0xEB#8).extractLsb' 0 2 = 3 ∧
    ((0xF1#8).extractLsb' 0 4 = 1 ∧ (0x6C#8).extractLsb' 0 2 = 0 ∧ (0x6C#8).getLsbD 7 = false ∧ (0x6C#8).getLsbD 2 = true) ∧
    ((0xEE#8).extractLsb' 0 2 = 2 ∧ (0xEF#8).extractLsb' 0 2 = 3) ∧ (0xF2#8).extractLsb' 0 4 = 2 := by decide

/-- OldInstructionsOutsideLong64, each mode. -/
theorem witness_OldInstructionsOutsideLong64 : (∀ m ∈ [Mode.prot32, .real, .v86], m ≠ .long64 ∧ m ≠ .prot16) ∧
    (0x69#8).extractLsb' 6 2 ≠ 3 := by decide

/-- RedundantByteBeforeForm1, at the greatest length: both rows, both kinds of byte. -/
theorem witness_RedundantByteBeforeForm1 :
    (Instr.unpckhpd ⟨some .ds, true, 8⟩ 0 (.reg 1)).wellFormed .long64 = true ∧
    (Instr.unpckhpd ⟨some .ds, true, 8⟩ 0 (.reg 1)).length = 14 ∧
    (Instr.unpckhpdRex ⟨none, false, 9⟩ 9 (.reg 1)).wellFormed .long64 = true ∧
    (Instr.unpckhpdRex ⟨none, false, 9⟩ 9 (.reg 1)).length = 14 ∧ (0x4F#8).extractLsb' 4 4 = 4 := by decide

/-- StepRunsDecoded. -/
theorem witness_StepRunsDecoded :
    (withCode [0xC5, 0xE9, 0x15, 0xCB]).exception = none ∧
    decode (withCode [0xC5, 0xE9, 0x15, 0xCB]).mode (withCode [0xC5, 0xE9, 0x15, 0xCB]).fetchBytes =
      .ok (.vunpckhpd128C5 np 1 2 (.reg 3), []) := ⟨rfl, rfl⟩

/-- StepRunsEncodedInstruction. -/
theorem witness_StepRunsEncodedInstruction :
    (withCode [0xC5, 0xE9, 0x15, 0xCB]).exception = none ∧
    (Instr.vunpckhpd128C5 np 1 2 (.reg 3)).wellFormed (withCode [0xC5, 0xE9, 0x15, 0xCB]).mode = true ∧
    ∀ k < (encode (.vunpckhpd128C5 np 1 2 (.reg 3))).length,
      (withCode [0xC5, 0xE9, 0x15, 0xCB]).fetchByte k = (encode (.vunpckhpd128C5 np 1 2 (.reg 3)))[k]? := by decide

/-- RaisedExceptionIsSticky. -/
theorem witness_RaisedExceptionIsSticky : (live.raise (.zero .gp)).exception = some (.zero .gp) := rfl

/-- IllegalEncodingRaisesUndefined: F24. -/
theorem witness_IllegalEncodingRaisesUndefined :
    (withCode [0x62, 0xF1, 0xED, 0x68, 0x15, 0xCB]).exception = none ∧
    decode (withCode [0x62, 0xF1, 0xED, 0x68, 0x15, 0xCB]).mode (withCode [0x62, 0xF1, 0xED, 0x68, 0x15, 0xCB]).fetchBytes =
      .error .invalidOpcode := ⟨rfl, rfl⟩

/-- Form 1 with sixteen bytes. -/
def overlong : Instr := .unpckhpd ⟨none, false, 12⟩ 0 (.reg 1)

/-- OverlongInstructionRaisesGp, at length 16. -/
theorem witness_OverlongInstructionRaisesGp :
    (withCode (encode overlong)).exception = none ∧ overlong.fieldsOk (withCode (encode overlong)).mode = true ∧
    overlong.length = 16 ∧ (withCode (encode overlong)).fetchBytes = (encode overlong).take 15 := by decide

/-- The bytes of LengthFaultComesFirst with ModRM after them, sixteen in all. -/
def lateEvex (p0 p1 : Byte) : List Byte := List.replicate 10 0x66 ++ [0x62, p0, p1, 0x48, 0x15, 0xCB]

/-- LengthFaultComesFirst, the hypotheses that do not speak of the fields. -/
abbrev LateEvex (p0 p1 : Byte) : Prop :=
  (withCode (lateEvex p0 p1)).exception = none ∧ (withCode (lateEvex p0 p1)).mode = .long64 ∧
    (withCode (lateEvex p0 p1)).fetchBytes = List.replicate 10 0x66 ++ [0x62, p0, p1, 0x48, 0x15]

/-- LengthFaultComesFirst, each disjunct: reserved P0 bits (map 3, pp = 00b), P1[2] = 0, mm = 00b, and W = 0 with map 0F and pp = 01b. -/
theorem witness_LengthFaultComesFirst :
    (LateEvex 0xFF 0xEC ∧ (0xFF#8).extractLsb' 2 2 ≠ 0) ∧ (LateEvex 0xF1 0xE9 ∧ (0xE9#8).getLsbD 2 = false) ∧
    (LateEvex 0xF0 0xED ∧ (0xF0#8).extractLsb' 0 2 = 0) ∧
    (LateEvex 0xF1 0x6D ∧ (0xF1#8).extractLsb' 0 2 = 1 ∧ (0x6D#8).extractLsb' 0 2 ≠ 0) :=
  ⟨⟨by decide, by decide⟩, ⟨by decide, by decide⟩, ⟨by decide, by decide⟩, ⟨by decide, by decide⟩⟩

theorem live_legacyAllowed : live.LegacyAllowed := ⟨by decide, by decide, by decide, by decide⟩
theorem live_vexAllowed : live.VexAllowed := ⟨by decide, by decide, by decide, by decide, by decide, by decide⟩
theorem live_evexAllowed (vl : VecLen) : live.EvexAllowed vl :=
  ⟨by decide, by decide, by decide, by decide, by decide, by decide, fun _ => by decide, by decide⟩

/-- The same state in real-address mode. -/
def liveReal : State := { live32 with cr0 := 0x60000010 }

/-- Form1RegisterResult in real-address mode. -/
theorem witness_Form1RegisterResult_real : liveReal.mode = .real ∧ liveReal.LegacyAllowed ∧ liveReal.ts = false :=
  ⟨by decide, ⟨by decide, by decide, by decide, by decide⟩, by decide⟩

/-- Form1RegisterResult, VexRegisterResult, EvexRegisterResult, UnmaskedEvexMatchesVex: in `Long64` and, for forms 1 to 3, in `Prot32`. -/
theorem witness_RegisterResults : (live.LegacyAllowed ∧ live.VexAllowed ∧ live.EvexAllowed .v128 ∧ live.EvexAllowed .v256 ∧
    live.EvexAllowed .v512 ∧ live.ts = false) ∧ live32.LegacyAllowed ∧ live32.VexAllowed ∧ live32.ts = false :=
  ⟨⟨live_legacyAllowed, live_vexAllowed, live_evexAllowed _, live_evexAllowed _, live_evexAllowed _, by decide⟩,
    ⟨by decide, by decide, by decide, by decide⟩, ⟨by decide, by decide, by decide, by decide, by decide, by decide⟩, by decide⟩

/-- With no page rule the translation is the identity. -/
theorem translate_identity (s : State) (h : s.pages = []) (a : Word64) : s.translate a = .ok a.toNat := by
  simp [State.translate, h]

/-- Eight bytes in memory, by the identity translation and with no other writer. -/
theorem holdsWord_identity (s : State) (h : s.pages = []) (n : SegName) (ea : Word64) (off : Nat) (w : Word64)
    (hb : ∀ i < 8, s.isDevice (s.linear n ea (off + i)).toNat = false ∧
      s.readByte (s.linear n ea (off + i)) = some (w.extractLsb' (8 * i) 8)) : s.HoldsWord n ea off w :=
  fun i hi => ⟨⟨_, translate_identity s h _, (hb i hi).1⟩, (hb i hi).2⟩

/-- Quadword `q` of the data. -/
def dataWord (q : Nat) : Word64 := 0xE000000000000000 + BitVec.ofNat 64 q

/-- Every form's operand at 2000H. -/
theorem live_readable (k : OperandKind) (words : Nat) (hw : words = 1 ∨ words = 2 ∨ words = 4 ∨ words = 8) :
    live.Readable k ⟨64, .ds, 0x2000⟩ words dataWord := by
  refine ⟨⟨.inl (by decide), ?_, ?_⟩, ?_, ?_⟩
  · rcases hw with rfl | rfl | rfl | rfl <;> decide
  · rcases hw with rfl | rfl | rfl | rfl <;> decide
  · cases k
    · exact (by decide : (live.linear .ds 0x2000 0).toNat % 16 = 0)
    all_goals exact fun h => absurd h (by decide)
  · have h8 : ∀ q < 8, ∀ i < 8, live.isDevice (live.linear .ds 0x2000 (8 * q + i)).toNat = false ∧
        live.readByte (live.linear .ds 0x2000 (8 * q + i)) = some ((dataWord q).extractLsb' (8 * i) 8) := by decide
    intro q hq
    exact holdsWord_identity _ (by decide) _ _ _ _ (h8 q (by omega))

/-- Form1MemoryResult. -/
theorem witness_Form1MemoryResult : live.LegacyAllowed ∧ live.ts = false ∧
    (⟨64, .ds, 0x2000⟩ : Located) = live.locate np 1 (Instr.unpckhpd np 2 (.mem (.base 0 .none))).length (.base 0 .none) ∧
    live.Readable .legacy ⟨64, .ds, 0x2000⟩ 2 dataWord :=
  ⟨live_legacyAllowed, by decide, by decide, live_readable _ _ (by decide)⟩

/-- VexMemoryResult, forms 2 and 3. -/
theorem witness_VexMemoryResult : live.VexAllowed ∧ live.ts = false ∧
    (⟨64, .ds, 0x2000⟩ : Located) = live.locate np 1 (Instr.vunpckhpd128C5 np 2 0 (.mem (.base 0 .none))).length (.base 0 .none) ∧
    live.Readable .full ⟨64, .ds, 0x2000⟩ VecLen.v128.kl dataWord ∧ live.Readable .full ⟨64, .ds, 0x2000⟩ VecLen.v256.kl dataWord :=
  ⟨live_vexAllowed, by decide, by decide, live_readable _ _ (by decide), live_readable _ _ (by decide)⟩

/-- EvexMemoryResult, with a one-byte displacement of -1 counted in units of 64 bytes. -/
theorem witness_EvexMemoryResult : live.EvexAllowed .v512 ∧ live.ts = false ∧
    (⟨64, .ds, 0x2000⟩ : Located) = live.locate np (8 * VecLen.v512.kl)
      (Instr.vunpckhpdEvex512 np 1 (.merge 1) 2 (.mem (.base 8 (.d8 0xFF)))).length (.base 8 (.d8 0xFF)) ∧
    live.Readable .full ⟨64, .ds, 0x2000⟩ VecLen.v512.kl dataWord :=
  ⟨live_evexAllowed _, by decide, by decide, live_readable _ _ (by decide)⟩

/-- UnmaskedEvexMatchesVex, memory operands: the EVEX one at [r8 - 64], its disp8 in units of 32 bytes, the VEX one at [rax]. -/
theorem witness_UnmaskedEvexMatchesVex : live.EvexAllowed .v256 ∧ live.ts = false ∧
    (⟨64, .ds, 0x2000⟩ : Located) = live.locate np (8 * VecLen.v256.kl)
      (Instr.vunpckhpdEvex256 np 1 .none 2 (.mem (.base 8 (.d8 0xFE)))).length (.base 8 (.d8 0xFE)) ∧
    (⟨64, .ds, 0x2000⟩ : Located) =
      live.locate np 1 (Instr.vunpckhpd256C5 np 1 2 (.mem (.base 0 .none))).length (.base 0 .none) ∧
    live.Readable .full ⟨64, .ds, 0x2000⟩ VecLen.v256.kl dataWord :=
  ⟨live_evexAllowed _, by decide, by decide, by decide, live_readable _ _ (by decide)⟩

/-- EvexBroadcastResult. -/
theorem witness_EvexBroadcastResult : live.EvexAllowed .v512 ∧ live.ts = false ∧
    (⟨64, .ds, 0x2000⟩ : Located) =
      live.locate np 8 (Instr.vunpckhpdEvex512 np 1 (.zero 5) 2 (.bcst (.base 3 .none))).length (.base 3 .none) ∧
    live.Readable .broadcast ⟨64, .ds, 0x2000⟩ 1 (fun _ => dataWord 0) := by
  refine ⟨live_evexAllowed _, by decide, by decide, ⟨(live_readable .broadcast 1 (by decide)).addressable,
    (live_readable .broadcast 1 (by decide)).aligned, fun q hq => ?_⟩⟩
  obtain rfl : q = 0 := by omega
  exact (live_readable .broadcast 1 (by decide)).holds 0 (by decide)

/-- Form1Undefined, each clause. -/
theorem witness_Form1Undefined : live.mode ≠ .prot16 ∧ ({ live with cr0 := live.cr0 ||| 4 } : State).em = true ∧
    ({ live with cr4 := 0x40000 } : State).osfxsr = false ∧
    ({ live with proc := { live.proc with hasSSE2 := false } } : State).proc.hasSSE2 = false := by decide

/-- VexUndefined, each clause. -/
theorem witness_VexUndefined : live.mode ≠ .prot16 ∧ ({ live with cr4 := 0x200 } : State).osxsave = false ∧
    (3#64).extractLsb' 1 2 ≠ 3#2 ∧ (5#64).extractLsb' 1 2 ≠ 3#2 ∧
    ({ live with proc := { live.proc with hasXSAVE := false } } : State).proc.hasXSAVE = false ∧
    ({ live with proc := { live.proc with hasAVX := false } } : State).proc.hasAVX = false ∧ State.reset.mode = .real ∧
    ({ live32 with rflags := 0x20002 } : State).mode = .v86 := by decide

/-- EvexUndefined: its further clauses, each with one bit missing. -/
theorem witness_EvexUndefined : live.mode ≠ .prot16 ∧ (0xC7#64).extractLsb' 5 3 ≠ 7#3 ∧ (0x67#64).extractLsb' 5 3 ≠ 7#3 ∧
    ({ live with proc := { live.proc with hasAVX512F := false } } : State).proc.hasAVX512F = false ∧
    ({ live with proc := { live.proc with hasAVX512VL := false } } : State).proc.hasAVX512VL = false := by decide

/-- TaskSwitchedRaisesNm. -/
theorem witness_TaskSwitchedRaisesNm : ({ live with cr0 := live.cr0 ||| 8 } : State).Allowed (.unpckhpd np 0 (.reg 1)) ∧
    ({ live with cr0 := live.cr0 ||| 8 } : State).ts = true :=
  ⟨⟨by decide, by decide, by decide, by decide⟩, by decide⟩

/-- Form 1 at [rax + d], [rbp + d]. -/
def form1At (b : BitVec 4) (d : BitVec 32) : Instr := .unpckhpd np 2 (.mem (.base b (.d32 d)))
/-- Form 6 at [rax + d], and its broadcast. -/
def form6At (d : BitVec 32) : Instr := .vunpckhpdEvex512 np 1 (.zero 1) 2 (.mem (.base 0 (.d32 d)))
/-- Form 6 broadcasting [rax + d]. -/
def bcstAt (d : BitVec 32) : Instr := .vunpckhpdEvex512 np 1 (.zero 1) 2 (.bcst (.base 0 (.d32 d)))
/-- Form 2 at [b + d]. -/
def form2At (b : BitVec 4) (d : BitVec 32) : Instr := .vunpckhpd128C4 np 1 2 (.mem (.base b (.d32 d)))

/-- Form1MisalignedRaisesGp: DS, and SS with a good address; one byte off either way. -/
theorem witness_Form1MisalignedRaisesGp :
    live.Allowed (form1At 0 1) ∧ live.ts = false ∧ live.mode = .long64 ∧
    live.operandOf (form1At 0 1) ⟨.legacy, 16, 1, .base 0 (.d32 1)⟩ = ⟨64, .ds, 0x2001⟩ ∧
    0x2001 + 16 ≤ 2 ^ 64 ∧ (live.linear .ds 0x2001 0).toNat % 16 ≠ 0 ∧
    live.operandOf (form1At 4 15) ⟨.legacy, 16, 1, .base 4 (.d32 15)⟩ = ⟨64, .ss, 15⟩ ∧
    (live.linear .ss 15 0).toNat % 16 ≠ 0 ∧ live.addressOk .ss 15 16 = true :=
  ⟨live_legacyAllowed, by decide, by decide, by decide, by decide, by decide, by decide, by decide, by decide⟩

/-- Form1StackMisalignedRaisesEither: [rbp + 1] just past the canonical range. -/
theorem witness_Form1StackMisalignedRaisesEither :
    live.Allowed (form1At 5 1) ∧ (form1At 5 1).memAccess = some ⟨.legacy, 16, 1, .base 5 (.d32 1)⟩ ∧
    live.operandOf (form1At 5 1) ⟨.legacy, 16, 1, .base 5 (.d32 1)⟩ = ⟨64, .ss, 0x0000800000000001⟩ ∧
    (live.linear .ss 0x0000800000000001 0).toNat % 16 ≠ 0 ∧ live.addressOk .ss 0x0000800000000001 16 = false :=
  ⟨live_legacyAllowed, rfl, by decide, by decide, by decide⟩

/-- BadAddressRaisesGpOrSs: F16 for form 1 through SS, F17's last byte for form 2, and in `Prot32` one byte past the limit. -/
theorem witness_BadAddressRaisesGpOrSs :
    (live.Allowed (form1At 5 0) ∧ live.operandOf (form1At 5 0) ⟨.legacy, 16, 1, .base 5 (.d32 0)⟩ = ⟨64, .ss, 0x0000800000000000⟩ ∧
      (live.linear .ss 0x0000800000000000 0).toNat % 16 = 0 ∧ live.addressOk .ss 0x0000800000000000 16 = false) ∧
    (live.Allowed (form2At 9 1) ∧ live.operandOf (form2At 9 1) ⟨.full, 16, 1, .base 9 (.d32 1)⟩ = ⟨64, .ds, 0x00007FFFFFFFFFF1⟩ ∧
      live.addressOk .ds 0x00007FFFFFFFFFF1 16 = false ∧ live.addressOk .ds 0x00007FFFFFFFFFF0 16 = true) ∧
    (live32.mode = .prot32 ∧ live32.operandOf (form2At 0 0xFF1) ⟨.full, 16, 1, .base 0 (.d32 0xFF1)⟩ = ⟨32, .ds, 0x2FF1⟩ ∧
      live32.addressOk .ds 0x2FF1 16 = false ∧ live32.addressOk .ds 0x2FF0 16 = true) :=
  ⟨⟨live_legacyAllowed, by decide, by decide, by decide⟩, ⟨live_vexAllowed, by decide, by decide, by decide⟩,
    ⟨by decide, by decide, by decide, by decide⟩⟩

/-- PageFaultReportsAFaultingByte: F30, byte 8 is the first on the faulting page 3000H; the writemask of form 6 is another case. -/
theorem witness_PageFaultReportsAFaultingByte :
    ({ live with pages := [absentPage 3] } : State).Allowed (form2At 0 0xFF8) ∧
    ({ live with pages := [absentPage 3] } : State).operandOf (form2At 0 0xFF8) ⟨.full, 16, 1, .base 0 (.d32 0xFF8)⟩ =
      ⟨64, .ds, 0x2FF8⟩ ∧
    ({ live with pages := [absentPage 3] } : State).Addressable ⟨64, .ds, 0x2FF8⟩ 16 ∧
    ({ live with pages := [absentPage 3] } : State).translate
      (({ live with pages := [absentPage 3] } : State).linear .ds 0x2FF8 8) = .error 0 ∧
    ({ live with pages := [absentPage 3] } : State).translate
      (({ live with pages := [absentPage 3] } : State).linear .ds 0x2FF8 7) = .ok 0x2FFF :=
  ⟨⟨by decide, by decide, by decide, by decide, by decide, by decide⟩, by decide, ⟨.inl (by decide), by decide, by decide⟩, rfl, rfl⟩

/-- BroadcastMisalignedRaisesAc: F31. -/
theorem witness_BroadcastMisalignedRaisesAc :
    (bcstAt 4).memAccess = some ⟨.broadcast, 8, 8, .base 0 (.d32 4)⟩ ∧ liveAc.Allowed (bcstAt 4) ∧ liveAc.ts = false ∧
    liveAc.operandOf (bcstAt 4) ⟨.broadcast, 8, 8, .base 0 (.d32 4)⟩ = ⟨64, .ds, 0x2004⟩ ∧
    liveAc.Addressable ⟨64, .ds, 0x2004⟩ 8 ∧ (∀ j < 8, ∃ pa, liveAc.translate (liveAc.linear .ds 0x2004 j) = .ok pa) ∧
    liveAc.am = true ∧ liveAc.ac = true ∧ liveAc.cpl = 3 ∧ (liveAc.linear .ds 0x2004 0).toNat % 8 ≠ 0 :=
  ⟨rfl, ⟨by decide, by decide, by decide, by decide, by decide, by decide, fun _ => by decide, by decide⟩, by decide, by decide,
    ⟨.inl (by decide), by decide, by decide⟩, fun _ _ => ⟨_, translate_identity _ rfl _⟩, by decide, by decide, by decide,
    by decide⟩

/-- FullWidthMisalignedIsUnknownFault: form 6 at 2008H. -/
theorem witness_FullWidthMisalignedIsUnknownFault :
    (form6At 8).memAccess = some ⟨.full, 64, 64, .base 0 (.d32 8)⟩ ∧ liveAc.Allowed (form6At 8) ∧
    liveAc.operandOf (form6At 8) ⟨.full, 64, 64, .base 0 (.d32 8)⟩ = ⟨64, .ds, 0x2008⟩ ∧
    liveAc.Addressable ⟨64, .ds, 0x2008⟩ 64 ∧ (∀ j < 64, ∃ pa, liveAc.translate (liveAc.linear .ds 0x2008 j) = .ok pa) ∧
    (liveAc.linear .ds 0x2008 0).toNat % 64 ≠ 0 :=
  ⟨rfl, ⟨by decide, by decide, by decide, by decide, by decide, by decide, fun _ => by decide, by decide⟩, by decide,
    ⟨.inl (by decide), by decide, by decide⟩, fun _ _ => ⟨_, translate_identity _ rfl _⟩, by decide⟩

/-- UnspecifiedStorageIsRefused, past the top: F36 under 67H, one byte past the top, and not. -/
theorem witness_UnspecifiedStorageIsRefused_top :
    live.Allowed (.vunpckhpd128C4 ⟨none, true, 0⟩ 1 2 (.mem (.base 0 (.d32 0xFFFFDFF1)))) ∧
    live.operandOf (.vunpckhpd128C4 ⟨none, true, 0⟩ 1 2 (.mem (.base 0 (.d32 0xFFFFDFF1))))
      ⟨.full, 16, 1, .base 0 (.d32 0xFFFFDFF1)⟩ = ⟨32, .ds, 0xFFFFFFF1⟩ ∧
    2 ^ 32 < (0xFFFFFFF1#64).toNat + 16 ∧ ¬ 2 ^ 32 < (0xFFFFFFF0#64).toNat + 16 :=
  ⟨live_vexAllowed, by decide, by decide, by decide⟩

/-- A device at the operand's last byte. -/
def liveDev : State := { live with devices := [⟨0x200F, 1⟩] }

/-- UnspecifiedStorageIsRefused, device. -/
theorem witness_UnspecifiedStorageIsRefused_device :
    liveDev.Allowed (form2At 0 0) ∧ liveDev.operandOf (form2At 0 0) ⟨.full, 16, 1, .base 0 (.d32 0)⟩ = ⟨64, .ds, 0x2000⟩ ∧
    liveDev.Addressable ⟨64, .ds, 0x2000⟩ 16 ∧ liveDev.Aligned .full ⟨64, .ds, 0x2000⟩ 16 ∧
    (∀ j < 16, ∃ pa, liveDev.translate (liveDev.linear .ds 0x2000 j) = .ok pa) ∧
    ∃ j < 16, ∃ pa, liveDev.translate (liveDev.linear .ds 0x2000 j) = .ok pa ∧ liveDev.isDevice pa = true :=
  ⟨⟨by decide, by decide, by decide, by decide, by decide, by decide⟩, by decide, ⟨.inl (by decide), by decide, by decide⟩,
    fun _ => by decide, fun _ _ => ⟨_, translate_identity _ rfl _⟩, 15, by decide, _, translate_identity _ rfl _, by decide⟩

/-- UnspecifiedStorageIsRefused, absent: the operand's last byte is the first past the data. -/
theorem witness_UnspecifiedStorageIsRefused_absent :
    live.Allowed (form2At 0 0x31) ∧ live.operandOf (form2At 0 0x31) ⟨.full, 16, 1, .base 0 (.d32 0x31)⟩ = ⟨64, .ds, 0x2031⟩ ∧
    live.Addressable ⟨64, .ds, 0x2031⟩ 16 ∧ live.Aligned .full ⟨64, .ds, 0x2031⟩ 16 ∧
    (∀ j < 16, ∀ pa, live.translate (live.linear .ds 0x2031 j) = .ok pa → live.isDevice pa = false) ∧
    ∃ j < 16, (OperandKind.full = .legacy → 8 ≤ j) ∧
      ∃ pa, live.translate (live.linear .ds 0x2031 j) = .ok pa ∧ Memory.read live.mem pa = none :=
  ⟨live_vexAllowed, by decide, ⟨.inl (by decide), by decide, by decide⟩, fun h => absurd h (by decide), fun _ _ _ _ => rfl,
    15, by decide, nofun, _, translate_identity _ rfl _, by decide⟩

/-- The launch state without the quadword at 2000H. -/
def liveUpper : State := { live with mem := data.drop 8 }

/-- Form1PartialFetch. -/
theorem witness_Form1PartialFetch :
    liveUpper.LegacyAllowed ∧ liveUpper.ts = false ∧
    (⟨64, .ds, 0x2000⟩ : Located) = liveUpper.locate np 1 (Instr.unpckhpd np 2 (.mem (.base 0 .none))).length (.base 0 .none) ∧
    liveUpper.Addressable ⟨64, .ds, 0x2000⟩ 16 ∧ liveUpper.Aligned .legacy ⟨64, .ds, 0x2000⟩ 16 ∧
    liveUpper.HoldsWord .ds 0x2000 8 (dataWord 1) ∧
    (∀ j < 8, ∃ pa, liveUpper.translate (liveUpper.linear .ds 0x2000 j) = .ok pa ∧ liveUpper.isDevice pa = false) ∧
    ∃ j < 8, ∃ pa, liveUpper.translate (liveUpper.linear .ds 0x2000 j) = .ok pa ∧ Memory.read liveUpper.mem pa = none :=
  ⟨⟨by decide, by decide, by decide, by decide⟩, by decide, by decide, ⟨.inl (by decide), by decide, by decide⟩,
    (by decide : (liveUpper.linear .ds 0x2000 0).toNat % 16 = 0), holdsWord_identity _ rfl _ _ _ _ (by decide),
    fun _ _ => ⟨_, translate_identity _ rfl _, rfl⟩, 7, by decide, _, translate_identity _ rfl _, by decide⟩

/-- EffectiveAddressIsModularSum, RipRelativeAddress, LinearAddressRule and OperandAddressCheck: the bounds and the modes. -/
theorem witness_AddressRules : (64 = 32 ∨ 64 = 64) ∧ 64 ≤ 64 ∧ 15 ≤ 15 ∧ live.mode = .long64 ∧ live32.mode = .prot32 ∧ 0 < 1 := by
  decide

/-- OperandAddressCheck, last clause: no rule covers DS:2FFFH where the one rule names SS. -/
theorem witness_OperandAddressCheck :
    ∀ r ∈ ({ live32 with segRules := [⟨.ss, 0, 0x2FFF, false⟩] } : State).segRules, r.seg = .ds →
      0x2FFF < r.first ∨ r.last < 0x2FFF := by decide

/-- An expand-down DS by rules: its limit 2FFFH is the last address outside it. -/
theorem test_expand_down :
    ({ live32 with segRules := [⟨.ds, 0, 0x2FFF, false⟩, ⟨.ds, 0x3000, 0xFFFFFFFF, true⟩] } : State).addressOk .ds 0x3000 16 = true ∧
    ({ live32 with segRules := [⟨.ds, 0, 0x2FFF, false⟩, ⟨.ds, 0x3000, 0xFFFFFFFF, true⟩] } : State).addressOk .ds 0x2FFF 1 = false := by
  decide

/-- Another agent's write: byte 2008H reads as 77H in the first load of the run. -/
def liveShared : State := { live with oracle := [⟨1, 0x2008, 0x66⟩, ⟨0, 0x2008, 0x77⟩] }

/-- B8 at [rax] with that write: the byte the oracle answers reaches the result and the record. -/
theorem test_step_oracle : after (exec (.vunpckhpd128C5 np 2 0 (.mem (.base 0 .none))) liveShared) 2 =
    some (#v[0xA000000000000001, 0xE000000000000077, 0, 0, 0, 0, 0, 0], 0x1004) := by decide

/-- OracleAnswersEveryByteRead, each clause. -/
theorem witness_OracleAnswersEveryByteRead :
    Memory.read liveShared.mem (liveShared.physical 0x2008) = some 1 ∧
    (∀ r ∈ liveShared.oracle, r.load = liveShared.reads.length → r.addr ≠ 0x2009) ∧
    (liveShared.oracle = [⟨1, 0x2008, 0x66⟩] ++ ⟨0, 0x2008, 0x77⟩ :: [] ∧ liveShared.reads.length = 0 ∧
      ∀ r' ∈ [(⟨1, 0x2008, 0x66⟩ : OracleAnswer)], r'.load = liveShared.reads.length → r'.addr ≠ 0x2008) := by decide

/-- OperandSegmentRule: RBP has SS, R12 and R13 have DS. -/
theorem witness_OperandSegmentRule :
    SegName.ss = (if (5#4).toNat = 4 ∨ (5#4).toNat = 5 then SegName.ss else SegName.ds) ∧
    SegName.ds = (if (13#4).toNat = 4 ∨ (13#4).toNat = 5 then SegName.ss else SegName.ds) ∧
    (live.locate np 1 4 (.base 12 .none)).seg = .ds := by decide

/-- PageFaultErrorCode. -/
theorem witness_PageFaultErrorCode :
    ({ live with pages := [absentPage 2], cpl := 3 } : State).translate 0x2000 = .error 4 := rfl

/-- FaultsArePrecise and OnlyTheListedExceptions: F16. -/
theorem witness_FaultsArePrecise : ∃ t, step (withCode [0xC5, 0xF9, 0x15, 0x45, 0x00]) = .next t ∧
    t.exception = some { kind := .ss, errorCode := some 0 } := ⟨_, rfl, rfl⟩

/-- CompletedStepWritesOnlyDestinationAndRip, MemoryIsNeverWritten, GatingStateIsNeverWritten. -/
theorem witness_CompletedStep : (withCode [0xC5, 0xE9, 0x15, 0xCB]).Completes := ⟨_, rfl, rfl⟩
theorem witness_MemoryIsNeverWritten : ∃ t, exec (.vunpckhpd128C5 np 1 2 (.reg 3)) live = .next t := ⟨_, rfl⟩

/-- StepKeepsInv. -/
theorem witness_StepKeepsInv : (withCode [0xC5, 0xE9, 0x15, 0xCB]).Inv ∧ ∃ t, step (withCode [0xC5, 0xE9, 0x15, 0xCB]) = .next t := by
  refine ⟨⟨by decide, by decide, fun n j hj => ?_, fun h => by exact absurd h (by decide), fun h => absurd rfl h⟩, _, rfl⟩
  have h8 : 8 ≤ j := hj
  simp [elemOf, Nat.not_lt.mpr h8]

/-- UpperMaskBitsIgnored: k4 = FF00H and k4 = 0 agree in bits [7:0]. -/
theorem witness_UpperMaskBitsIgnored : ∀ n : BitVec 3, Mask.merge 4 = .merge n ∨ Mask.merge 4 = .zero n → ∀ j < VecLen.v512.kl,
    ((live.opmask.set 4 0)[n.toNat]'n.isLt).getLsbD j = (live.opmask[n.toNat]'n.isLt).getLsbD j := by decide

/-- PrivilegeLevelIsIrrelevant and RegisterFormsOnlyUdOrNm. -/
theorem witness_PrivilegeLevelIsIrrelevant : (Instr.vunpckhpdEvex512 np 1 (.merge 1) 2 (.reg 3)).memAccess = none ∧
    live.mode ≠ .prot16 := ⟨rfl, by decide⟩

/-- LowElementsOfSourcesIgnored: register 4 is register 3 with its even elements cleared. -/
theorem witness_LowElementsOfSourcesIgnored : ∀ j, j % 2 = 1 →
    elemOf ((live.setVec 4 (Vector.ofFn fun q => if q.val % 2 = 0 then 0 else (pat 3)[q.val])).vec 3) j =
      elemOf ((live.setVec 4 (Vector.ofFn fun q => if q.val % 2 = 0 then 0 else (pat 3)[q.val])).vec 4) j := by
  intro j hj
  by_cases h : j < 8
  · revert hj; revert j; decide
  · simp [elemOf, h]

end Sys2Proof.Tests
end

section
/-!
SUPPORT. One execution, said once: what gates an instruction, what its second source is, what it writes (`exec_eq`), and
everything that an execution (`exec_next`) and a step (`step_next`) can answer with a next state.
-/
namespace Sys2Proof.Machine

/-! ## Every arm of `exec` is one `State.run` -/

/-- What gates an instruction (60_exceptions.md R173 to R175). -/
def gateClassOf : Instr → GateClass
  | .unpckhpd .. | .unpckhpdRex .. => .legacy
  | .vunpckhpd128C5 .. | .vunpckhpd128C4 .. => .vex .v128
  | .vunpckhpd256C5 .. | .vunpckhpd256C4 .. => .vex .v256
  | .vunpckhpdEvex128 .. => .evex .v128
  | .vunpckhpdEvex256 .. => .evex .v256
  | .vunpckhpdEvex512 .. => .evex .v512

/-- The second source of an instruction, with the state that records its read, or the stop of its operand. -/
def State.src2Of (s : State) (i : Instr) : Except Stop (VecReg × State) :=
  match i with
  | .unpckhpd p _ o | .unpckhpdRex p _ o => s.src2Legacy p i.length o
  | .vunpckhpd128C5 p _ _ o | .vunpckhpd128C4 p _ _ o => s.src2Vex .v128 p i.length o
  | .vunpckhpd256C5 p _ _ o | .vunpckhpd256C4 p _ _ o => s.src2Vex .v256 p i.length o
  | .vunpckhpdEvex128 p _ _ _ o => s.src2Evex .v128 p i.length o
  | .vunpckhpdEvex256 p _ _ _ o => s.src2Evex .v256 p i.length o
  | .vunpckhpdEvex512 p _ _ _ o => s.src2Evex .v512 p i.length o

/-- What an instruction writes to its destination when its second source is `b` (R131 to R133, R152 to R154). -/
def State.resultOf (s : State) (i : Instr) (b : VecReg) : VecReg :=
  match i with
  | .unpckhpd _ d _ | .unpckhpdRex _ d _ => keepUpper (interleaveHigh .v128 (s.vec d) b) (s.vec d)
  | .vunpckhpd128C5 _ _ a _ | .vunpckhpd128C4 _ _ a _ => zeroUpper .v128 (interleaveHigh .v128 (s.vec a) b)
  | .vunpckhpd256C5 _ _ a _ | .vunpckhpd256C4 _ _ a _ => zeroUpper .v256 (interleaveHigh .v256 (s.vec a) b)
  | .vunpckhpdEvex128 _ d k a _ => maskWrite .v128 k s.opmask (interleaveHigh .v128 (s.vec a) b) (s.vec d)
  | .vunpckhpdEvex256 _ d k a _ => maskWrite .v256 k s.opmask (interleaveHigh .v256 (s.vec a) b) (s.vec d)
  | .vunpckhpdEvex512 _ d k a _ => maskWrite .v512 k s.opmask (interleaveHigh .v512 (s.vec a) b) (s.vec d)

/-- The write and the advance that complete an instruction with second source `b`. -/
def State.finishOf (s : State) (i : Instr) (b : VecReg) : State := (s.setVec i.dest (s.resultOf i b)).advance i.length

theorem exec_eq (i : Instr) (s : State) :
    exec i s = s.run (s.gateOf (gateClassOf i)) (s.src2Of i) fun b t => t.finishOf i b := by
  cases i <;> rfl

/-! ## Exceptions -/

/-- `t` is `s` with one of the exceptions of 60_exceptions.md R172 raised, its error code that of the table; CR2 is written by a
#PF only (R183). -/
inductive State.Raises (s : State) : State → Prop where
  | plain (k : ExcKind) (hk : k = .ud ∨ k = .nm) : s.Raises { s with exception := some (.plain k) }
  | zero (k : ExcKind) (d : Nat) (hk : k = .ss ∨ k = .gp ∨ k = .ac) :
    s.Raises { s with exception := some (.zero k), draws := d }
  | page (a : Word64) (c : BitVec 32) (d : Nat) :
    s.Raises { s with exception := some { kind := .pf, errorCode := some c }, cr2 := a, draws := d }

/-- Only `exception`, `cr2` and `draws` differ after a raised exception. -/
theorem State.Raises.eq {s t : State} (h : s.Raises t) :
    ∃ e, t = { s with exception := some e, cr2 := t.cr2, draws := t.draws } := by
  cases h <;> exact ⟨_, rfl⟩

/-- A gate raises #UD or #NM only (60_exceptions.md R176). -/
theorem gateOf_some {s : State} {g : GateClass} {k : ExcKind} (h : s.gateOf g = some k) : k = .ud ∨ k = .nm := by
  have key : ∀ ud, s.gate ud = some k → k = .ud ∨ k = .nm := by
    intro ud hg
    obtain ⟨-, e⟩ | ⟨-, -, e⟩ | ⟨-, -, e⟩ := gate_cases s ud <;> simp_all
  cases g <;> exact key _ h

theorem operandStop_raises {s t : State} {k : OperandKind} {bits size : Nat} {n : SegName} {ea : Word64}
    (h : s.operandStop k bits n ea size = some (.next t)) : s.Raises t := by
  obtain h | ⟨e, he, h | h⟩ | ⟨_, _, c, _, h⟩ | h | h | h | h := operandStop_cases s k bits n ea size _ h <;> cases h
  · obtain rfl | rfl := he
    · exact .zero .gp s.draws (by simp)
    · exact .zero .ss s.draws (by simp)
  · obtain rfl | rfl := he
    · exact .zero .gp (s.draws + 1) (by simp)
    · exact .zero .ss (s.draws + 1) (by simp)
  · exact .page _ c (s.draws + 1)
  · exact .zero .ac s.draws (by simp)

/-! ## The second source -/

/-- A read of the second source changes only `reads` and `draws`; a stop of it that is a next state raises an exception. -/
def State.SourceSound (s : State) (r : Except Stop (VecReg × State)) : Prop :=
  (∀ b t, r = .ok (b, t) → ∃ rs d, t = { s with reads := rs, draws := d }) ∧ (∀ t, r = .error (.next t) → s.Raises t)

theorem sourceSound_reg (s : State) (v : VecReg) : s.SourceSound (.ok (v, s)) :=
  ⟨fun _ _ h => by cases h; exact ⟨_, _, rfl⟩, fun _ h => nomatch h⟩

theorem sourceSound_readMem (s : State) (k : OperandKind) (size : Nat) (l : Located) :
    s.SourceSound (s.readMem k size l) := by
  constructor
  · intro b t h
    obtain ⟨-, -, -, rfl⟩ := readMem_ok s k size l b t h
    obtain ⟨e, d, hn⟩ := noteRead_cases s k l.seg l.ea size
    exact ⟨_, _, hn⟩
  · intro t h
    obtain h | h := readMem_error s k size l _ h
    · cases h
    · exact operandStop_raises h

theorem sourceSound_legacy (s : State) (p : Prefixes) (len : Nat) (o : RegMem) :
    s.SourceSound (s.src2Legacy p len o) := by
  cases o with
  | reg r => exact sourceSound_reg s _
  | mem m => exact sourceSound_readMem s _ _ _

theorem sourceSound_vex (s : State) (vl : VecLen) (p : Prefixes) (len : Nat) (o : RegMem) :
    s.SourceSound (s.src2Vex vl p len o) := by
  cases o with
  | reg r => exact sourceSound_reg s _
  | mem m => exact sourceSound_readMem s _ _ _

theorem sourceSound_evex (s : State) (vl : VecLen) (p : Prefixes) (len : Nat) (o : RegMemBcst) :
    s.SourceSound (s.src2Evex vl p len o) := by
  cases o with
  | reg r => exact sourceSound_reg s _
  | mem m => exact sourceSound_readMem s _ _ _
  | bcst m =>
    obtain ⟨hok, herr⟩ := sourceSound_readMem s .broadcast 8 (s.locate p 8 len m)
    simp only [State.src2Evex]
    cases hr : s.readMem .broadcast 8 (s.locate p 8 len m) with
    | error e => exact ⟨fun _ _ h => (by cases h), fun t h => herr t (by cases h; exact hr)⟩
    | ok r => exact ⟨fun b t h => (by cases h; exact hok _ _ hr), fun _ h => (by cases h)⟩

theorem sourceSound_src2Of (s : State) (i : Instr) : s.SourceSound (s.src2Of i) := by
  cases i with
  | unpckhpd | unpckhpdRex => exact sourceSound_legacy ..
  | vunpckhpd128C5 | vunpckhpd128C4 | vunpckhpd256C5 | vunpckhpd256C4 => exact sourceSound_vex ..
  | vunpckhpdEvex128 | vunpckhpdEvex256 | vunpckhpdEvex512 => exact sourceSound_evex ..

/-! ## What an execution and a step can do -/

/-- `t` is `s` after `i` has completed: its gate was open, its destination has its result for some second source, rip is
advanced, and the model's own `reads` and `draws` may differ (10_state.md R34). -/
structure State.Executed (s : State) (i : Instr) (t : State) : Prop where
  gate : s.gateOf (gateClassOf i) = none
  wrote : ∃ b rs d, t = { s with zmm := s.zmm.set i.dest.toNat (s.resultOf i b) i.dest.isLt, rip := s.nextRip i.length,
                                 reads := rs, draws := d }

/-- `reads` and `draws` have no part in what completes an instruction. -/
theorem finishOf_read (s : State) (rs : List Load) (d : Nat) (i : Instr) (b : VecReg) :
    ({ s with reads := rs, draws := d } : State).finishOf i b =
      { s with zmm := s.zmm.set i.dest.toNat (s.resultOf i b) i.dest.isLt, rip := s.nextRip i.length,
               reads := rs, draws := d } := by
  cases i <;> rfl

/-- An execution that answers a next state raises an exception or completes. -/
theorem exec_next {i : Instr} {s t : State} (h : exec i s = .next t) : s.Raises t ∨ s.Executed i t := by
  obtain ⟨hok, herr⟩ := sourceSound_src2Of s i
  rw [exec_eq, run_next] at h
  obtain ⟨-, ⟨k, hk, rfl⟩ | ⟨hg, he | ⟨b, s', hs, rfl⟩⟩⟩ := h
  · exact .inl (.plain k (gateOf_some hk))
  · exact .inl (herr t he)
  · obtain ⟨rs, d, rfl⟩ := hok b s' hs
    exact .inr ⟨hg, b, rs, d, finishOf_read s rs d i b⟩

/-- Bytes that are no instruction of the model give a next state by an exception only. -/
theorem rejected_next {s t : State} {r : Reject} (h : s.rejected r = .next t) : s.Raises t := by
  cases r with
  | invalidOpcode => cases h; exact .plain .ud (.inl rfl)
  | tooLong => cases h; exact .zero .gp s.draws (by simp)
  | refusedForm g w =>
    rw [State.rejected, run_next] at h
    obtain ⟨-, ⟨k, hk, rfl⟩ | ⟨-, he | ⟨_, _, he, -⟩⟩⟩ := h
    · exact .plain k (gateOf_some hk)
    · cases he
    · cases he
  | truncated => cases h
  | otherInstruction => cases h
  | mode16 => cases h

theorem fetchInstr_ok {s : State} {i : Instr} (h : s.fetchInstr = .ok i) :
    ∃ rest, decode s.mode s.fetchBytes = .ok (i, rest) := by
  unfold State.fetchInstr at h
  split at h
  · next hd => cases h; exact ⟨_, hd⟩
  · cases h

/-- A step that answers a next state raises an exception or completes the instruction decoded at rip. -/
theorem step_next {s t : State} (h : step s = .next t) :
    s.exception = none ∧
      (s.Raises t ∨ ∃ i rest, decode s.mode s.fetchBytes = .ok (i, rest) ∧ s.Executed i t) := by
  unfold step at h
  cases hx : s.exception with
  | some e => simp [hx] at h
  | none =>
    cases hf : s.fetchInstr with
    | error r => exact ⟨rfl, .inl (rejected_next (by simpa [hx, hf] using h))⟩
    | ok i =>
      obtain ⟨rest, hd⟩ := fetchInstr_ok hf
      exact ⟨rfl, (exec_next (by simpa [hx, hf] using h)).imp id fun he => ⟨i, rest, hd, he⟩⟩

end Sys2Proof.Machine
end

section
/-!
SUPPORT. What the decoder's answer has to do with its bytes: every parser consumes the bytes its result's length says, and
its result is one the mode can spell (30_encoding.md rules R83, R84, R89, R95, R101 to R103, R108).
-/
namespace Sys2Proof

/-! ## Register numbers -/

theorem toNat_num4 : ∀ (hi : Bool) (lo : BitVec 3), (num4 hi lo).toNat = 8 * hi.toNat + lo.toNat := by decide

theorem low3_num4 : ∀ (hi : Bool) (lo : BitVec 3), low3 (num4 hi lo) = lo := by decide

theorem toNat_num5 : ∀ (top hi : Bool) (lo : BitVec 3),
    (num5 top hi lo).toNat = 16 * top.toNat + 8 * hi.toNat + lo.toNat := by decide

theorem num4_lt {hi : Bool} {lo : BitVec 3} {bound : Nat} (h : 8 * hi.toNat + 8 ≤ bound) : (num4 hi lo).toNat < bound := by
  have := toNat_num4 hi lo
  omega

theorem reach16 (hi : Bool) : 8 * hi.toNat + 8 ≤ 16 := by cases hi <;> decide

theorem num5_lt {top hi : Bool} {lo : BitVec 3} {bound : Nat} (h : 16 * top.toNat + 8 * hi.toNat + 8 ≤ bound) :
    (num5 top hi lo).toNat < bound := by
  have := toNat_num5 top hi lo
  omega

theorem num5_false_lt {hi : Bool} {lo : BitVec 3} {bound : Nat} (h : 8 * hi.toNat + 8 ≤ bound) :
    (num5 false hi lo).toNat < bound :=
  num5_lt (by simpa using h)

/-! ## Consuming bytes -/

/-- `rest` is what stands after the first `n` of the bytes `bs`. -/
def Consumes (n : Nat) (bs rest : List Byte) : Prop := bs.length = n + rest.length ∧ rest = bs.drop n

theorem consumes_zero (bs : List Byte) : Consumes 0 bs bs := ⟨by simp, rfl⟩

theorem Consumes.cons {n : Nat} {bs rest : List Byte} (h : Consumes n bs rest) (b : Byte) : Consumes (n + 1) (b :: bs) rest :=
  ⟨by simp only [List.length_cons, h.1]; omega, h.2⟩

theorem Consumes.trans {m n : Nat} {as bs cs : List Byte} (h : Consumes m as bs) (h' : Consumes n bs cs) :
    Consumes (m + n) as cs :=
  ⟨by rw [h.1, h'.1]; omega, by rw [h'.2, h.2, List.drop_drop]⟩

theorem Consumes.append {n : Nat} {bs rest : List Byte} (h : Consumes n bs rest) (cs : List Byte) :
    Consumes n (bs ++ cs) (rest ++ cs) := by
  obtain ⟨hlen, rfl⟩ := h
  exact ⟨by simp only [List.length_append]; omega, (List.drop_append_of_le_length (by omega)).symm⟩

/-! ## Displacement, SIB and ModRM (R101 to R103) -/

theorem takeD8_ok {bs rest : List Byte} {d : BitVec 8} (h : takeD8 bs = .ok (d, rest)) : Consumes 1 bs rest := by
  cases bs with
  | nil => cases h
  | cons b bs => cases h; exact (consumes_zero _).cons _

theorem takeD32_ok {bs rest : List Byte} {d : BitVec 32} (h : takeD32 bs = .ok (d, rest)) : Consumes 4 bs rest := by
  unfold takeD32 at h
  split at h
  · cases h; exact ((((consumes_zero _).cons _).cons _).cons _).cons _
  · cases h

/-- A displacement is left out with `mod` 00b only. -/
theorem takeDisp_ok {mod : BitVec 2} {bs rest : List Byte} {d : Disp} (h : takeDisp mod bs = .ok (d, rest)) :
    Consumes d.length bs rest ∧ (d = .none → mod = 0) := by
  unfold takeDisp at h
  split at h
  · next hm => cases h; exact ⟨consumes_zero _, fun _ => hm⟩
  · split at h
    · split at h
      · next hd => cases h; exact ⟨takeD8_ok hd, fun e => nomatch e⟩
      · cases h
    · split at h
      · next hd => cases h; exact ⟨takeD32_ok hd, fun e => nomatch e⟩
      · cases h

/-- A base register before a displacement that `mod` calls for, where `rm = 101b` with `mod` 00b is another operand. -/
theorem dispOk_num4 {mod : BitVec 2} {rm : BitVec 3} {b : Bool} {d : Disp} (hd : d = .none → mod = 0)
    (h : ¬ (rm = 5 ∧ mod = 0)) : dispOk (num4 b rm) d = true := by
  simp only [dispOk, low3_num4, Bool.not_eq_true', Bool.and_eq_false_imp, beq_iff_eq, beq_eq_false_iff_ne]
  exact fun e hrm => h ⟨hrm, hd e⟩

theorem indexOk_num4 {x : Bool} {lo : BitVec 3} {scale : BitVec 2} {bound : Nat} (hx : 8 * x.toNat + 8 ≤ bound) :
    indexOk bound (if num4 x lo = 4 then none else some (num4 x lo, scale)) = true := by
  split
  · rfl
  · next h => simpa [indexOk, num4_lt hx] using h

theorem takeSib_ok {mod : BitVec 2} {x b : Bool} {bs rest : List Byte} {m : MemOperand} {bound : Nat}
    (h : takeSib mod x b bs = .ok (m, rest)) (hx : 8 * x.toNat + 8 ≤ bound) (hb : 8 * b.toNat + 8 ≤ bound) :
    m.wellFormed bound = true ∧ ∃ n, m.length = 1 + n ∧ Consumes n bs rest := by
  cases bs with
  | nil => cases h
  | cons s bs =>
    simp only [takeSib] at h
    split at h
    · split at h
      · next hd => cases h; exact ⟨indexOk_num4 hx, 5, rfl, (takeD32_ok hd).cons s⟩
      · cases h
    · next hbase =>
      split at h
      · next d _ hd =>
        cases h
        obtain ⟨hc, hn⟩ := takeDisp_ok hd
        refine ⟨?_, d.length + 1, ?_, hc.cons s⟩
        · simp only [MemOperand.wellFormed, Bool.and_eq_true, decide_eq_true_eq]
          exact ⟨⟨num4_lt hb, indexOk_num4 hx⟩, dispOk_num4 hn hbase⟩
        · simp only [MemOperand.length]; omega
      · cases h

theorem takeMem_ok {mod : BitVec 2} {rm : BitVec 3} {x b : Bool} {bs rest : List Byte} {m : MemOperand} {bound : Nat}
    (h : takeMem mod rm x b bs = .ok (m, rest)) (hx : 8 * x.toNat + 8 ≤ bound) (hb : 8 * b.toNat + 8 ≤ bound) :
    m.wellFormed bound = true ∧ ∃ n, m.length = 1 + n ∧ Consumes n bs rest := by
  unfold takeMem at h
  split at h
  · exact takeSib_ok h hx hb
  · next hsib =>
    split at h
    · split at h
      · next hd => cases h; exact ⟨rfl, 4, rfl, takeD32_ok hd⟩
      · cases h
    · next hbase =>
      split at h
      · next d _ hd =>
        cases h
        obtain ⟨hc, hn⟩ := takeDisp_ok hd
        refine ⟨?_, d.length, rfl, hc⟩
        have h4 : low3 (num4 b rm) != 4#3 := by simpa [low3_num4] using hsib
        simp [MemOperand.wellFormed, num4_lt hb, h4, dispOk_num4 hn hbase]
      · cases h

/-- ModRM, SIB and displacement of an operand as the bytes give it. -/
def RawRM.length : RawRM → Nat
  | .reg _ => 1
  | .mem m => m.length

/-- A memory operand is one ModRM and SIB can spell, with general registers below `bound`, where addresses have more than 16 bits. -/
def RawRM.wellFormed (wide : Bool) (bound : Nat) : RawRM → Bool
  | .reg _ => true
  | .mem m => wide && m.wellFormed bound

theorem parseRM_ok {wide x b : Bool} {bs rest : List Byte} {g : BitVec 3} {o : RawRM} {bound : Nat}
    (h : parseRM wide x b bs = .ok (g, some o, rest)) (hx : 8 * x.toNat + 8 ≤ bound) (hb : 8 * b.toNat + 8 ≤ bound) :
    o.wellFormed wide bound = true ∧ Consumes o.length bs rest := by
  cases bs with
  | nil => cases h
  | cons m bs =>
    simp only [parseRM] at h
    split at h
    · cases h; exact ⟨rfl, (consumes_zero _).cons m⟩
    · split at h
      · next hw =>
        split at h
        · next op _ hm =>
          cases h
          obtain ⟨hwf, n, hlen, hc⟩ := takeMem_ok hm hx hb
          exact ⟨by simp [RawRM.wellFormed, hw, hwf], by simpa [RawRM.length, hlen, Nat.add_comm] using hc.cons m⟩
        · cases h
      · cases h

theorem toRegMem_length (b : Bool) (o : RawRM) : (o.toRegMem b).length = o.length := by
  cases o <;> rfl

theorem toRegMem_wellFormed {wide wide' b : Bool} {bound : Nat} {o : RawRM} (h : o.wellFormed wide bound = true)
    (hw : wide = true → wide' = true) (hb : 8 * b.toNat + 8 ≤ bound) : (o.toRegMem b).wellFormed wide' bound = true := by
  cases o with
  | reg r => simpa [RawRM.toRegMem, RegMem.wellFormed] using num5_lt (top := false) (by simpa using hb)
  | mem m =>
    simp only [RawRM.wellFormed, Bool.and_eq_true] at h
    simp [RawRM.toRegMem, RegMem.wellFormed, hw h.1, h.2]

theorem evexSrc2_length (p0 p2 : Byte) (o : RawRM) : (evexSrc2 p0 p2 o).length = o.length := by
  cases o with
  | reg r => rfl
  | mem m => simp only [evexSrc2]; split <;> rfl

theorem evexSrc2_wellFormed {wide : Bool} {p0 p2 : Byte} {vbound gbound : Nat} {o : RawRM}
    (h : o.wellFormed wide gbound = true) (hv : 16 * (!p0.getLsbD 6).toNat + 8 * (!p0.getLsbD 5).toNat + 8 ≤ vbound) :
    (evexSrc2 p0 p2 o).wellFormed vbound gbound = true := by
  cases o with
  | reg r => simpa [evexSrc2, RegMemBcst.wellFormed] using num5_lt hv
  | mem m =>
    simp only [RawRM.wellFormed, Bool.and_eq_true] at h
    simp only [evexSrc2]
    split <;> exact h.2

/-! ## Prefixes (R83, R84, R108) -/

/-- No byte among the prefixes that a form cannot carry: LOCK, F2H, F3H, or two REX bytes together. -/
def Scan.clean (sc : Scan) : Bool := !sc.lock && !sc.rep && !sc.rexPair

/-- How many bytes a scan without such a byte has read. -/
def Scan.count (sc : Scan) : Nat := sc.opsize + sc.addrsize + sc.segs.length + sc.deadRex + sc.rex.toList.length

@[simp] theorem killRex_opsize (sc : Scan) : sc.killRex.opsize = sc.opsize := by unfold Scan.killRex; split <;> rfl
@[simp] theorem killRex_addrsize (sc : Scan) : sc.killRex.addrsize = sc.addrsize := by unfold Scan.killRex; split <;> rfl
@[simp] theorem killRex_segs (sc : Scan) : sc.killRex.segs = sc.segs := by unfold Scan.killRex; split <;> rfl

/-- The REX byte that is killed is counted as a dead one. -/
theorem killRex_rexes (sc : Scan) :
    sc.killRex.deadRex + sc.killRex.rex.toList.length = sc.deadRex + sc.rex.toList.length := by
  unfold Scan.killRex
  split
  · rfl
  · next h => simp [h]

theorem killRex_clean (sc : Scan) : sc.killRex.clean = sc.clean := by
  unfold Scan.killRex
  split <;> rfl

theorem push_ok {sc : Scan} {p : PrefixByte} (h : (sc.push p).clean = true) :
    sc.clean = true ∧ (sc.push p).count = sc.count + 1 := by
  have hc := killRex_rexes sc
  cases p with
  | opsize | addrsize => exact ⟨(killRex_clean sc).symm.trans h, by simp [Scan.push, Scan.count]; omega⟩
  | seg s => exact ⟨(killRex_clean sc).symm.trans h, by simp [Scan.push, Scan.count]; omega⟩
  | lock => simp [Scan.push, Scan.clean] at h
  | rep => simp [Scan.push, Scan.clean] at h

theorem pushRex_ok {sc : Scan} {b : Byte} (h : (sc.pushRex b).clean = true) :
    sc.clean = true ∧ (sc.pushRex b).count = sc.count + 1 := by
  cases hr : sc.rex with
  | none => simpa [Scan.pushRex, Scan.clean, Scan.count, hr] using h
  | some r => simp [Scan.pushRex, Scan.clean, hr] at h

/-- A scan from `sc` to `sc'` began clean and has counted every byte of `bs` before `rest`. -/
def Scan.Counts (sc sc' : Scan) (bs rest : List Byte) : Prop :=
  sc.clean = true ∧ ∃ n, sc'.count = sc.count + n ∧ Consumes n bs rest

theorem Scan.Counts.cons {sc mid sc' : Scan} {bs rest : List Byte} (h : mid.Counts sc' bs rest) (b : Byte)
    (hb : mid.clean = true → sc.clean = true ∧ mid.count = sc.count + 1) : sc.Counts sc' (b :: bs) rest := by
  obtain ⟨hmid, n, hn, hcons⟩ := h
  obtain ⟨hclean, hcount⟩ := hb hmid
  exact ⟨hclean, n + 1, by omega, hcons.cons b⟩

theorem scanPrefixes_counts (long : Bool) (bs : List Byte) (sc : Scan) (h : (scanPrefixes long sc bs).1.clean = true) :
    sc.Counts (scanPrefixes long sc bs).1 bs (scanPrefixes long sc bs).2 := by
  induction bs generalizing sc with
  | nil => exact ⟨h, 0, rfl, consumes_zero _⟩
  | cons b bs ih =>
    simp only [scanPrefixes] at h ⊢
    split at h
    · exact (ih _ h).cons b push_ok
    · split at h
      · next hr => rw [if_pos hr]; exact (ih _ h).cons b pushRex_ok
      · next hr => rw [if_neg hr]; exact ⟨h, 0, rfl, consumes_zero _⟩

/-- A byte among the legacy prefixes leaves no REX byte that counts (R83). -/
theorem push_rex (sc : Scan) (p : PrefixByte) : (sc.push p).rex = none := by
  have hk : sc.killRex.rex = none := by
    unfold Scan.killRex
    split
    · assumption
    · rfl
  cases p <;> exact hk

/-- REX bytes are read in `Long64` only (R83). -/
theorem scanPrefixes_rex (bs : List Byte) (sc : Scan) (h : sc.rex = none) : (scanPrefixes false sc bs).1.rex = none := by
  induction bs generalizing sc with
  | nil => exact h
  | cons b bs ih =>
    simp only [scanPrefixes, Bool.false_and, Bool.false_eq_true, if_false]
    split
    · next p _ => exact ih _ (push_rex sc p)
    · exact h

/-- What the prefixes of a form keep of a scan. -/
theorem toPrefixes_ok {sc : Scan} {p : Prefixes} (h : sc.toPrefixes = .ok p) :
    sc.rexPair = false ∧ p.redundant = (sc.opsize - 1) + sc.deadRex ∧ p.addr32 = decide (sc.addrsize = 1) ∧
      p.length = sc.segs.length + sc.addrsize + (sc.opsize - 1) + sc.deadRex := by
  unfold Scan.toPrefixes at h
  split at h
  · cases h
  · next hsegs =>
    split at h
    · cases h
    · next haddr =>
      split at h
      · cases h
      · next hpair =>
        cases h
        have hs : (if sc.segs.head?.isSome then 1 else 0) = sc.segs.length := by
          match hl : sc.segs with
          | [] => rfl
          | [_] => rfl
          | _ :: _ :: _ => simp [hl] at hsegs
        have ha : (if sc.addrsize = 1 then 1 else 0) = sc.addrsize := by split <;> omega
        exact ⟨by simpa using hpair, rfl, rfl, by simp only [Prefixes.length, decide_eq_true_eq, hs, ha]; omega⟩

/-- 67H outside `Long64` gives no form (R84). -/
theorem addrOk_of_not_narrow {m : Mode} {sc : Scan} {p : Prefixes} (hp : sc.toPrefixes = .ok p)
    (hn : sc.narrow m = false) : p.addrOk m = true := by
  obtain ⟨-, -, ha, -⟩ := toPrefixes_ok hp
  by_cases hm : m = .long64
  · simp [Prefixes.addrOk, hm]
  · have : sc.addrsize = 0 := by simpa [Scan.narrow, hm] using hn
    simp [Prefixes.addrOk, ha, this]

/-- Nothing but segment overrides and 67H stands before C5H, C4H or 62H (R90, R100). -/
theorem badBeforeVex_false {sc : Scan} (h : sc.badBeforeVex = false) :
    sc.lock = false ∧ sc.rep = false ∧ sc.opsize = 0 ∧ sc.deadRex = 0 ∧ sc.rex = none := by
  simpa [Scan.badBeforeVex, and_assoc] using h

theorem wide_of_scanWide {m : Mode} {sc : Scan} (h : sc.wide m = true) : m.wide = true := by
  simp only [Scan.wide, Bool.and_eq_true] at h
  exact h.1

theorem finishForm_ok {m : Mode} {sc : Scan} {g : GateClass} {bad : Bool} {refused : Option Unmodelled} {rm : Option RawRM}
    {rest rest' : List Byte} {build : Prefixes → RawRM → Instr} {i : Instr}
    (h : finishForm m sc g bad refused rm rest build = .ok (i, rest')) :
    bad = false ∧ sc.narrow m = false ∧ refused = none ∧ rest' = rest ∧
      ∃ o p, rm = some o ∧ sc.toPrefixes = .ok p ∧ i = build p o := by
  unfold finishForm at h
  split at h
  · cases h
  · next hbad =>
    split at h
    · cases h
    · next hn =>
      split at h
      · cases h
      · cases h
      · cases h
      · next o p hp => cases h; exact ⟨by simpa using hbad, by simpa using hn, rfl, rfl, o, p, rfl, hp, rfl⟩

/-! ## The parsers -/

/-- The instruction `i`, parsed from `bs` after a scan `sc` and `k` more bytes, is one the mode can spell, and its length counts
the bytes of the scan, the `k` bytes and those it consumes of `bs`. -/
structure SoundParse (m : Mode) (sc : Scan) (k : Nat) (bs rest : List Byte) (i : Instr) : Prop where
  fields : i.fieldsOk m = true
  clean : sc.clean = true
  consumed : ∃ n, i.length = sc.count + k + n ∧ Consumes n bs rest

theorem SoundParse.cons {m : Mode} {sc : Scan} {k : Nat} {bs rest : List Byte} {i : Instr}
    (h : SoundParse m sc (k + 1) bs rest i) (b : Byte) : SoundParse m sc k (b :: bs) rest i := by
  obtain ⟨n, hlen, hc⟩ := h.consumed
  exact ⟨h.fields, h.clean, n + 1, by omega, hc.cons b⟩

/-- Form 1, after `0F 15`. -/
theorem parseLegacy_sound {m : Mode} {sc : Scan} {bs rest : List Byte} {i : Instr} (hm : m ≠ .prot16)
    (hrex : m ≠ .long64 → sc.rex = none) (h : parseLegacy m sc bs = .ok (i, rest)) : SoundParse m sc 2 bs rest i := by
  unfold parseLegacy at h
  split at h
  · cases h
  · next g rm rest' hrm =>
    split at h
    · cases h
    · next h66 =>
      obtain ⟨hbad, hn, -, rfl, o, p, rfl, hp, rfl⟩ := finishForm_ok h
      obtain ⟨hpair, -, -, hlen⟩ := toPrefixes_ok hp
      have haddr := addrOk_of_not_narrow hp hn
      obtain ⟨hrep, hlock⟩ : sc.rep = false ∧ sc.lock = false := by simpa using hbad
      have h66 : sc.opsize ≠ 0 := by simpa [hrep] using h66
      have hclean : sc.clean = true := by simp [Scan.clean, hrep, hlock, hpair]
      cases hr : sc.rex with
      | none =>
        simp only [hr, Option.getD_none] at hrm
        obtain ⟨ho, hc⟩ := parseRM_ok (bound := 8) hrm (by decide) (by decide)
        refine ⟨?_, hclean, o.length, ?_, hc⟩
        · simp only [legacyInstr, Instr.fieldsOk, Bool.and_eq_true, decide_eq_true_eq, bne_iff_ne]
          exact ⟨⟨⟨hm, haddr⟩, num5_false_lt (by decide)⟩, toRegMem_wellFormed ho wide_of_scanWide (by decide)⟩
        · simp [legacyInstr, Instr.length, toRegMem_length, hlen, Scan.count, hr]; omega
      | some r =>
        have hlong : m = .long64 := by
          by_contra hne
          simp [hrex hne] at hr
        obtain ⟨ho, hc⟩ := parseRM_ok (bound := 16) hrm (reach16 _) (reach16 _)
        refine ⟨?_, hclean, o.length, ?_, hc⟩
        · simp only [legacyInstr, Instr.fieldsOk, Bool.and_eq_true, decide_eq_true_eq, beq_iff_eq]
          exact ⟨⟨⟨hlong, num5_false_lt (reach16 _)⟩, haddr⟩, toRegMem_wellFormed ho (fun _ => rfl) (reach16 _)⟩
        · simp [legacyInstr, Instr.length, toRegMem_length, hlen, Scan.count, hr]; omega

/-! ## VEX (R86 to R92) -/

/-- The fields after C5H or C4H name registers of the mode (R89), and those after C5H have no X and B (R86). -/
structure Vex.InReach (m : Mode) (v : Vex) : Prop where
  r : 8 * v.r.toNat + 8 ≤ m.bound 16
  vvvv : v.vvvv.toNat < m.bound 16
  x : 8 * v.x.toNat + 8 ≤ m.bound (if v.three then 16 else 8)
  b : 8 * v.b.toNat + 8 ≤ m.bound (if v.three then 16 else 8)

/-- Outside `Long64` the recognised fields have no extension bits but those `forMode` drops. -/
theorem inReach_forMode {m : Mode} {v : Vex} (hr : m ≠ .long64 → v.r = false ∧ v.x = false)
    (h2 : v.three = false → v.x = false ∧ v.b = false) : (v.forMode m).InReach m := by
  by_cases hm : m = .long64
  · subst hm
    simp only [Vex.forMode, if_true]
    refine ⟨reach16 _, v.vvvv.isLt, ?_, ?_⟩
    · cases ht : v.three with
      | true => exact reach16 _
      | false => simp [(h2 ht).1, Mode.bound]
    · cases ht : v.three with
      | true => exact reach16 _
      | false => simp [(h2 ht).2, Mode.bound]
  · obtain ⟨hr, hx⟩ := hr hm
    have hv : (v.vvvv &&& 7).toNat < 8 := by
      rw [BitVec.toNat_and]
      exact Nat.lt_of_le_of_lt Nat.and_le_right (by decide)
    simp only [Vex.forMode, if_neg hm]
    exact ⟨by simp [hr, Mode.bound, hm], by simpa [Mode.bound, hm] using hv, by simp [hx, Mode.bound, hm],
      by simp [Mode.bound, hm]⟩

/-- Bits 7 and 6 of the byte after C5H, C4H or 62H where these are no LDS, LES or BOUND (R89, R95). -/
theorem vexRecognised_bits {m : Mode} {v : Byte} (h : vexRecognised m v = true) (hm : m ≠ .long64) :
    v.getLsbD 7 = true ∧ v.getLsbD 6 = true := by
  have h3 : v.extractLsb' 6 2 = 3#2 := by simpa [vexRecognised, hm] using h
  have h1 : (v.extractLsb' 6 2).getLsbD 1 = true := by rw [h3]; decide
  have h0 : (v.extractLsb' 6 2).getLsbD 0 = true := by rw [h3]; decide
  exact ⟨by simpa using h1, by simpa using h0⟩

/-- A mode with VEX prefixes is `Long64` or `Prot32`, the modes whose memory operands the model addresses. -/
theorem wide_of_vex {m : Mode} (h16 : m ≠ .prot16) (h : m.noVex = false) : m.wide = true := by
  cases m <;> simp_all [Mode.noVex, Mode.wide]

/-- What the prefixes of a VEX or EVEX form keep of a scan that `finishForm` passes (R80, R90, R100). -/
theorem vexPrefixes_ok {m : Mode} {sc : Scan} {p : Prefixes} (hbad : sc.badBeforeVex = false) (hn : sc.narrow m = false)
    (hp : sc.toPrefixes = .ok p) : p.vexOk m = true ∧ sc.clean = true ∧ p.length = sc.count := by
  obtain ⟨hlock, hrep, hops, hdead, hrex⟩ := badBeforeVex_false hbad
  obtain ⟨hpair, hred, -, hlen⟩ := toPrefixes_ok hp
  refine ⟨?_, by simp [Scan.clean, hlock, hrep, hpair], by simp [Scan.count, hlen, hops, hdead, hrex]; omega⟩
  simp [Prefixes.vexOk, addrOk_of_not_narrow hp hn, hred, hops, hdead]

/-- The four rows of forms 2 and 3 have the same bounds but for the r/m operand (R89). -/
theorem vexInstr_fieldsOk (m : Mode) (v : Vex) (p : Prefixes) (g : BitVec 3) (o : RawRM) :
    (vexInstr v p g o).fieldsOk m =
      vexWellFormed m (if v.three then 16 else 8) p (num5 false v.r g) (v.vvvv.setWidth 5) (o.toRegMem v.b) := by
  obtain ⟨three, r, x, b, vvvv, l, pp⟩ := v
  cases three <;> cases l <;> rfl

theorem vexInstr_length (v : Vex) (p : Prefixes) (g : BitVec 3) (o : RawRM) :
    (vexInstr v p g o).length = p.length + (if v.three then 4 else 3) + o.length := by
  rw [← toRegMem_length v.b]
  obtain ⟨three, r, x, b, vvvv, l, pp⟩ := v
  cases three <;> cases l <;> rfl

/-- Forms 2 and 3, after the payload of C5H or C4H. -/
theorem parseVex_sound {m : Mode} {sc : Scan} {v : Vex} {bs rest : List Byte} {i : Instr} (hm : m ≠ .prot16)
    (hv : v.InReach m) (h : parseVex m sc v bs = .ok (i, rest)) :
    SoundParse m sc (if v.three then 3 else 2) bs rest i := by
  cases bs with
  | nil => cases h
  | cons op bs =>
    simp only [parseVex] at h
    split at h
    · cases h
    · split at h
      · cases h
      · next g rm rest' hrm =>
        obtain ⟨hbad, hn, -, rfl, o, p, rfl, hp, rfl⟩ := finishForm_ok h
        obtain ⟨⟨-, hno⟩, hbefore⟩ : (v.pp = 1 ∧ m.noVex = false) ∧ sc.badBeforeVex = false := by simpa using hbad
        obtain ⟨hpv, hclean, hlen⟩ := vexPrefixes_ok hbefore hn hp
        obtain ⟨ho, hc⟩ := parseRM_ok hrm hv.x hv.b
        refine SoundParse.cons ⟨?_, hclean, o.length, ?_, hc⟩ op
        · have hvvvv : (v.vvvv.setWidth 5).toNat < m.bound 16 := by
            rw [BitVec.toNat_setWidth_of_le (by decide)]; exact hv.vvvv
          simp only [vexInstr_fieldsOk, vexWellFormed, Bool.and_eq_true, decide_eq_true_eq]
          exact ⟨⟨⟨⟨wide_of_vex hm hno, hpv⟩, num5_false_lt hv.r⟩, hvvvv⟩, toRegMem_wellFormed ho (fun _ => rfl) hv.b⟩
        · rw [vexInstr_length, hlen]; split <;> omega

/-- Forms 2 and 3, after C5H. -/
theorem parseC5_sound {m : Mode} {sc : Scan} {bs rest : List Byte} {i : Instr} (hm : m ≠ .prot16)
    (h : parseC5 m sc bs = .ok (i, rest)) : SoundParse m sc 1 bs rest i := by
  cases bs with
  | nil => cases h
  | cons v bs =>
    simp only [parseC5] at h
    split at h
    · next hrec =>
      have hreach : ((vexC5 v).forMode m).InReach m :=
        inReach_forMode (fun hm => ⟨by simp [vexC5, (vexRecognised_bits hrec hm).1], rfl⟩) fun _ => ⟨rfl, rfl⟩
      have hthree : ((vexC5 v).forMode m).three = false := by unfold Vex.forMode; split <;> rfl
      have hs := parseVex_sound hm hreach h
      simp only [hthree, Bool.false_eq_true, if_false] at hs
      exact hs.cons v
    · cases h

/-- Forms 2 and 3, after C4H. -/
theorem parseC4_sound {m : Mode} {sc : Scan} {bs rest : List Byte} {i : Instr} (hm : m ≠ .prot16)
    (h : parseC4 m sc bs = .ok (i, rest)) : SoundParse m sc 1 bs rest i := by
  cases bs with
  | nil => cases h
  | cons v1 bs =>
    simp only [parseC4] at h
    split at h
    · next hrec =>
      split at h
      · cases h
      · cases h
      · next v2 bs _ =>
        have hreach : ((vexC4 v1 v2).forMode m).InReach m :=
          inReach_forMode (fun hm => by simp [vexC4, vexRecognised_bits hrec hm]) fun e => nomatch e
        have hthree : ((vexC4 v1 v2).forMode m).three = true := by unfold Vex.forMode; split <;> rfl
        have hs := parseVex_sound hm hreach h
        simp only [hthree, if_true] at hs
        exact (hs.cons v2).cons v1
      · next v2 bs _ =>
        unfold parseNoMap at h
        split at h
        · cases h
        · split at h <;> cases h
    · cases h

/-! ## EVEX (R93 to R100) -/

theorem evexMask_wellFormed (p2 : Byte) : (evexMask p2).wellFormed = true := by
  unfold evexMask
  split
  · rfl
  · next h => split <;> simpa [Mask.wellFormed] using h

/-- The complemented extension bits of P0, P1 and P2 name registers of the mode (R95). -/
structure EvexInReach (m : Mode) (p0 p1 p2 : Byte) : Prop where
  dest : 16 * (!p0.getLsbD 4).toNat + 8 * (!p0.getLsbD 7).toNat + 8 ≤ m.bound 32
  src1 : (evexSrc1 p1 p2).toNat < m.bound 32
  src2 : 16 * (!p0.getLsbD 6).toNat + 8 * (!p0.getLsbD 5).toNat + 8 ≤ m.bound 32
  x : 8 * (!p0.getLsbD 6).toNat + 8 ≤ m.bound 16
  b : 8 * (!p0.getLsbD 5).toNat + 8 ≤ m.bound 16

theorem reach32 (top hi : Bool) : 16 * top.toNat + 8 * hi.toNat + 8 ≤ 32 := by cases top <;> cases hi <;> decide

theorem toNat_lt_8 : ∀ r : BitVec 5, r.getLsbD 4 = false → r.getLsbD 3 = false → r.toNat < 8 := by decide

/-- With V' and v3 stored as 1 the first source is one of registers 0 to 7. -/
theorem evexSrc1_lt {p1 p2 : Byte} (hv' : p2.getLsbD 3 = true) (hv3 : p1.getLsbD 6 = true) :
    (evexSrc1 p1 p2).toNat < 8 := by
  apply toNat_lt_8
  · simp only [evexSrc1, BitVec.getLsbD_append]; simpa using hv'
  · simp only [evexSrc1, BitVec.getLsbD_append]; simpa using hv3

theorem evexInReach {m : Mode} {p0 p1 p2 : Byte} (hrec : vexRecognised m p0 = true) (hbits : evexBitsOk m p0 p1 p2 = true) :
    EvexInReach m p0 p1 p2 := by
  by_cases hm : m = .long64
  · subst hm
    exact ⟨reach32 _ _, (evexSrc1 p1 p2).isLt, reach32 _ _, reach16 _, reach16 _⟩
  · obtain ⟨h7, h6⟩ := vexRecognised_bits hrec hm
    simp only [evexBitsOk, hm, decide_false, Bool.false_or, Bool.and_eq_true] at hbits
    obtain ⟨⟨⟨h5, h4⟩, hv'⟩, hv3⟩ := hbits
    have h8 (n : Nat) : m.bound n = 8 := if_neg hm
    exact ⟨by simp [h8, h4, h7], by simpa [h8] using evexSrc1_lt hv' hv3, by simp [h8, h6, h5], by simp [h8, h6], by simp [h8, h5]⟩

theorem evexInstr_fieldsOk {m : Mode} {wide : Bool} {vl : VecLen} {p0 p1 p2 : Byte} {p : Prefixes} {g : BitVec 3} {o : RawRM}
    (hw : m.wide = true) (hp : p.vexOk m = true) (hr : EvexInReach m p0 p1 p2) (ho : o.wellFormed wide (m.bound 16) = true) :
    (evexInstr vl p0 p1 p2 p g o).fieldsOk m = true := by
  have key : evexWellFormed m p (num5 (!p0.getLsbD 4) (!p0.getLsbD 7) g) (evexMask p2) (evexSrc1 p1 p2)
      (evexSrc2 p0 p2 o) = true := by
    simp only [evexWellFormed, Bool.and_eq_true, decide_eq_true_eq]
    exact ⟨⟨⟨⟨⟨hw, hp⟩, num5_lt hr.dest⟩, evexMask_wellFormed p2⟩, hr.src1⟩, evexSrc2_wellFormed ho hr.src2⟩
  cases vl <;> exact key

theorem evexInstr_length (vl : VecLen) (p0 p1 p2 : Byte) (p : Prefixes) (g : BitVec 3) (o : RawRM) :
    (evexInstr vl p0 p1 p2 p g o).length = p.length + 5 + o.length := by
  rw [← evexSrc2_length p0 p2]
  cases vl <;> rfl

/-- Forms 4 to 6, after 62H P0 P1 P2 15H. -/
theorem parseEvexOperands_sound {m : Mode} {sc : Scan} {p0 p1 p2 : Byte} {bs rest : List Byte} {i : Instr}
    (hm : m ≠ .prot16) (hrec : vexRecognised m p0 = true) (h : parseEvexOperands m sc p0 p1 p2 bs = .ok (i, rest)) :
    SoundParse m sc 5 bs rest i := by
  unfold parseEvexOperands at h
  split at h
  · cases h
  · next g rm rest' hrm =>
    split at h
    · cases h
    · obtain ⟨hbad, hn, href, rfl, o, p, rfl, hp, rfl⟩ := finishForm_ok h
      obtain ⟨⟨-, hno⟩, hbefore⟩ : (evexBad p0 p1 p2 (some o) = false ∧ m.noVex = false) ∧ sc.badBeforeVex = false := by
        simpa using hbad
      have hreach := evexInReach hrec (by simpa using href)
      obtain ⟨hpv, hclean, hlen⟩ := vexPrefixes_ok hbefore hn hp
      obtain ⟨ho, hc⟩ := parseRM_ok hrm hreach.x hreach.b
      exact ⟨evexInstr_fieldsOk (wide_of_vex hm hno) hpv hreach ho, hclean, o.length, by rw [evexInstr_length, hlen], hc⟩

/-- Forms 4 to 6, after 62H. -/
theorem parseEvex_sound {m : Mode} {sc : Scan} {bs rest : List Byte} {i : Instr} (hm : m ≠ .prot16)
    (h : parseEvex m sc bs = .ok (i, rest)) : SoundParse m sc 1 bs rest i := by
  unfold parseEvex at h
  split at h
  · cases h
  · split at h
    · next hrec =>
      split at h
      · split at h
        · cases h
        · exact ((((parseEvexOperands_sound hm hrec h).cons _).cons _).cons _).cons _
      · cases h
    · cases h

/-! ## The decoder -/

/-- The instruction after the prefixes. -/
theorem parseHead_sound {m : Mode} {sc : Scan} {bs rest : List Byte} {i : Instr} (hm : m ≠ .prot16)
    (hrex : m ≠ .long64 → sc.rex = none) (h : parseHead m sc bs = .ok (i, rest)) : SoundParse m sc 0 bs rest i := by
  unfold parseHead at h
  split at h
  · cases h
  · split at h
    · split at h
      · cases h
      · split at h
        · exact ((parseLegacy_sound hm hrex h).cons _).cons _
        · cases h
    · split at h
      · exact (parseC5_sound hm h).cons _
      · split at h
        · exact (parseC4_sound hm h).cons _
        · split at h
          · exact (parseEvex_sound hm h).cons _
          · cases h

/-- One instruction of a window is one the mode can spell, and consumes the bytes of its length. -/
theorem parseWindow_sound {m : Mode} {bs rest : List Byte} {i : Instr} (hm : m ≠ .prot16)
    (h : parseWindow m bs = .ok (i, rest)) : i.fieldsOk m = true ∧ Consumes i.length bs rest := by
  obtain ⟨hfields, hclean, n, hlen, hc⟩ := parseHead_sound hm (fun hl => by simpa [hl] using scanPrefixes_rex bs Scan.start rfl) h
  obtain ⟨-, k, hcount, hk⟩ := scanPrefixes_counts _ bs Scan.start hclean
  have hlen : i.length = k + n := by rw [hlen, hcount]; simp [Scan.start, Scan.count]
  exact ⟨hfields, hlen ▸ hk.trans hc⟩

/-- A decoded instruction is one the mode can spell (10_state.md R21) and consumes the bytes of its length, at most 15 (R108). -/
theorem decode_sound {m : Mode} {bs rest : List Byte} {i : Instr} (h : decode m bs = .ok (i, rest)) :
    i.wellFormed m = true ∧ Consumes i.length bs rest := by
  unfold decode at h
  split at h
  · cases h
  · next hm =>
    split at h
    · next rest' hw =>
      cases h
      obtain ⟨hf, hc⟩ := parseWindow_sound hm hw
      have h15 : i.length ≤ 15 := by
        have := List.length_take_le 15 bs
        have := hc.1
        simp only [Config.maxInstrBytes] at this
        omega
      refine ⟨by simp [Instr.wellFormed, hf, Config.maxInstrBytes, h15], ?_⟩
      simpa only [List.take_append_drop] using hc.append (bs.drop Config.maxInstrBytes)
    · split at h <;> cases h
    · cases h

end Sys2Proof
end

section
/-!
SUPPORT. The vector registers an instruction can leave behind: no bit at or above MAXVL, no register that does not exist
(00_scope.md R7; 10_state.md R21, R22).
-/
namespace Sys2Proof.Machine

/-- An open gate of forms 2 and 3 says that the processor has registers of their length (R174; log 4). -/
theorem fits_of_gateVex {s : State} {vl : VecLen} (h : s.gateOf (.vex vl) = none) : vl.kl ≤ s.proc.maxvl.elements := by
  obtain ⟨-, e⟩ | ⟨-, -, e⟩ | ⟨hud, -, -⟩ := gate_cases s (s.udVex vl)
  · exact nomatch h.symm.trans e
  · exact nomatch h.symm.trans e
  · simp only [State.udVex, Bool.or_eq_false_iff] at hud
    simpa [State.fits] using hud.2

/-- An open gate of forms 4 to 6 says the same, and that the processor has AVX512F (R175; log 4). -/
theorem fits_of_gateEvex {s : State} {vl : VecLen} (h : s.gateOf (.evex vl) = none) :
    vl.kl ≤ s.proc.maxvl.elements ∧ s.proc.hasAVX512F = true := by
  obtain ⟨-, e⟩ | ⟨-, -, e⟩ | ⟨hud, -, -⟩ := gate_cases s (s.udEvex vl)
  · exact nomatch h.symm.trans e
  · exact nomatch h.symm.trans e
  · simp only [State.udEvex, Bool.or_eq_false_iff] at hud
    obtain ⟨⟨⟨-, hf⟩, -⟩, hfits⟩ := hud
    exact ⟨by simpa [State.fits] using hfits, by simpa using hf⟩

theorem two_le_elements (x : MaxVL) : 2 ≤ x.elements := by cases x <;> decide

/-- The result of an instruction whose gate is open has no bit at or above MAXVL. -/
theorem resultOf_above {s : State} {i : Instr} (hs : s.upperClear) (hg : s.gateOf (gateClassOf i) = none) (b : VecReg)
    {j : Nat} (hj : s.proc.maxvl.elements ≤ j) : elemOf (s.resultOf i b) j = 0 := by
  have h2 := two_le_elements s.proc.maxvl
  cases i with
  | unpckhpd _ d | unpckhpdRex _ d =>
    rw [State.resultOf, elemOf_keepUpper, if_neg (by omega)]
    exact hs d j hj
  | vunpckhpd128C5 | vunpckhpd128C4 | vunpckhpd256C5 | vunpckhpd256C4 =>
    have := fits_of_gateVex hg
    rw [State.resultOf, elemOf_zeroUpper, if_neg (by omega)]
  | vunpckhpdEvex128 | vunpckhpdEvex256 | vunpckhpdEvex512 =>
    have := (fits_of_gateEvex hg).1
    rw [State.resultOf, elemOf_maskWrite, if_neg (by omega)]

theorem bound_le (m : Mode) {n : Nat} (h : 8 ≤ n) : m.bound n ≤ n := by
  unfold Mode.bound
  split <;> omega

theorem dest_lt_of_vexWellFormed {m : Mode} {bound : Nat} {p : Prefixes} {d a : BitVec 5} {o : RegMem}
    (h : vexWellFormed m bound p d a o = true) : d.toNat < 16 := by
  simp only [vexWellFormed, Bool.and_eq_true, decide_eq_true_eq] at h
  obtain ⟨⟨⟨-, hd⟩, -⟩, -⟩ := h
  exact Nat.lt_of_lt_of_le hd (bound_le m (by decide))

/-- Forms 1 to 3 name none of registers 16 to 31, and forms 4 to 6 need AVX512F (10_state.md R21). -/
theorem dest_lt_of_no_avx512f {s : State} {m : Mode} {i : Instr} (hwf : i.wellFormed m = true)
    (hg : s.gateOf (gateClassOf i) = none) (hf : s.proc.hasAVX512F = false) : i.dest.toNat < 16 := by
  simp only [Instr.wellFormed, Bool.and_eq_true] at hwf
  obtain ⟨hfields, -⟩ := hwf
  cases i with
  | unpckhpd p d o =>
    simp only [Instr.fieldsOk, Bool.and_eq_true, decide_eq_true_eq] at hfields
    obtain ⟨⟨-, hd⟩, -⟩ := hfields
    exact Nat.lt_trans hd (by decide)
  | unpckhpdRex p d o =>
    simp only [Instr.fieldsOk, Bool.and_eq_true, decide_eq_true_eq] at hfields
    obtain ⟨⟨⟨-, hd⟩, -⟩, -⟩ := hfields
    exact hd
  | vunpckhpd128C5 | vunpckhpd128C4 | vunpckhpd256C5 | vunpckhpd256C4 => exact dest_lt_of_vexWellFormed hfields
  | vunpckhpdEvex128 | vunpckhpdEvex256 | vunpckhpdEvex512 => simp [(fits_of_gateEvex hg).2] at hf

/-- Outside `Long64` the advanced instruction pointer has 32 bits. -/
theorem nextRip_lt {s : State} (len : Nat) (hm : s.mode ≠ .long64) : (s.nextRip len).toNat < 2 ^ 32 := by
  rw [State.nextRip, if_neg hm, low32, BitVec.toNat_setWidth_of_le (by decide)]
  exact BitVec.isLt _

/-- A write of vector register `d` seen at register `n`. -/
theorem setVec_vec (s : State) (d n : BitVec 5) (v : VecReg) : (s.setVec d v).vec n = if n = d then v else s.vec n := by
  split
  · next h => rw [h, State.setVec_vec_same]
  · next h => exact State.setVec_vec_other s d n v h

/-- A completed instruction keeps the invariant. -/
theorem executed_keeps_inv {s t : State} {i : Instr} (hs : s.Inv) (hwf : i.wellFormed s.mode = true)
    (h : s.Executed i t) : t.Inv := by
  obtain ⟨hg, b, rs, d, rfl⟩ := h
  refine ⟨hs.mem, hs.proc, fun n j hj => ?_, fun hf n hn => ?_, fun hm => nextRip_lt (s := s) i.length hm⟩
  · change elemOf ((s.setVec i.dest (s.resultOf i b)).vec n) j = 0
    rw [setVec_vec]
    split
    · exact resultOf_above hs.upper hg b hj
    · exact hs.upper n j hj
  · change (s.setVec i.dest (s.resultOf i b)).vec n = _
    have hlt := dest_lt_of_no_avx512f hwf hg hf
    rw [State.setVec_vec_other s _ n _ (by rintro rfl; omega)]
    exact hs.absent hf n hn

/-- The invariant speaks neither of the exception nor of CR2. -/
theorem raises_keeps_inv {s t : State} (hs : s.Inv) (h : s.Raises t) : t.Inv := by
  obtain ⟨e, ht⟩ := h.eq
  rw [ht]
  exact ⟨hs.mem, hs.proc, hs.upper, hs.absent, hs.rip⟩

end Sys2Proof.Machine
end

section
/-!
SUPPORT. Updates of MXCSR and of the opmask registers, which no operand reads (10_state.md R23, R28), commute with an execution up to
its write.
-/
namespace Sys2Proof.Machine

/-- `s` with MXCSR and the opmask registers replaced by functions of themselves. -/
def State.mapStatus (s : State) (x : BitVec 32 → BitVec 32) (k : Vector Word64 8 → Vector Word64 8) : State :=
  { s with mxcsr := x s.mxcsr, opmask := k s.opmask }

/-- The answer of a second source with its state changed by `f`. -/
def mapSource (f : State → State) : Except Stop (VecReg × State) → Except Stop (VecReg × State)
  | .error o => .error (mapNext f o)
  | .ok (b, t) => .ok (b, f t)

/-- An execution from a changed state `f s` is the changed execution from `s`, when raising and finishing commute with the change. -/
theorem run_map (f : State → State) (s : State) (g : Option ExcKind) (src2 : Except Stop (VecReg × State))
    (fin fin' : VecReg → State → State) (hmode : (f s).mode = s.mode) (hraise : ∀ e, (f s).raise e = f (s.raise e))
    (hfin : ∀ b t, src2 = .ok (b, t) → fin' b (f t) = f (fin b t)) :
    (f s).run g (mapSource f src2) fin' = mapNext f (s.run g src2 fin) := by
  unfold State.run
  rw [hmode]
  split
  · rfl
  · cases g with
    | some k => simp only [hraise]; rfl
    | none =>
      cases src2 with
      | error o => rfl
      | ok r => simp only [mapSource, hfin r.1 r.2 rfl]; rfl

section
variable (x : BitVec 32 → BitVec 32) (k : Vector Word64 8 → Vector Word64 8)

theorem addressStop_mapStatus (s : State) (kind : OperandKind) (n : SegName) (ea : Word64) (size : Nat) :
    (s.mapStatus x k).addressStop kind n ea size =
      (s.addressStop kind n ea size).map (mapNext fun t => t.mapStatus x k) := by
  have h1 : (s.mapStatus x k).linear n ea 0 = s.linear n ea 0 := rfl
  have h2 : (s.mapStatus x k).addressOk n ea size = s.addressOk n ea size := rfl
  simp only [State.addressStop, h1, h2]
  split
  · rfl
  · rfl
  · rfl
  · split <;> rfl

theorem pageStop_mapStatus (s : State) (n : SegName) (ea : Word64) (size : Nat) :
    (s.mapStatus x k).pageStop n ea size = (s.pageStop n ea size).map (mapNext fun t => t.mapStatus x k) := by
  have h : (s.mapStatus x k).faultingBytes n ea size = s.faultingBytes n ea size := rfl
  simp only [State.pageStop, h]
  split <;> rfl

theorem alignmentStop_mapStatus (s : State) (kind : OperandKind) (a : Word64) (size : Nat) :
    (s.mapStatus x k).alignmentStop kind a size = (s.alignmentStop kind a size).map (mapNext fun t => t.mapStatus x k) := by
  have h : (s.mapStatus x k).alignmentChecking = s.alignmentChecking := rfl
  simp only [State.alignmentStop, h]
  split
  · cases kind <;> rfl
  · rfl

/-- The refusals of storage carry no state. -/
theorem storageStop_mapStatus (s : State) (kind : OperandKind) (n : SegName) (ea : Word64) (size : Nat) :
    (s.mapStatus x k).storageStop kind n ea size =
      (s.storageStop kind n ea size).map (mapNext fun t => t.mapStatus x k) := by
  have h : (s.mapStatus x k).storageStop kind n ea size = s.storageStop kind n ea size := rfl
  rw [h, State.storageStop]
  split
  · rfl
  · split <;> rfl

theorem operandStop_mapStatus (s : State) (kind : OperandKind) (bits : Nat) (n : SegName) (ea : Word64) (size : Nat) :
    (s.mapStatus x k).operandStop kind bits n ea size =
      (s.operandStop kind bits n ea size).map (mapNext fun t => t.mapStatus x k) := by
  have h : (s.mapStatus x k).linear n ea 0 = s.linear n ea 0 := rfl
  simp only [State.operandStop, addressStop_mapStatus, pageStop_mapStatus, alignmentStop_mapStatus, storageStop_mapStatus, h]
  split
  · rfl
  · simp only [Option.orElse_eq_or, Option.map_or]

theorem readMem_mapStatus (s : State) (kind : OperandKind) (size : Nat) (l : Located) :
    (s.mapStatus x k).readMem kind size l = mapSource (fun t => t.mapStatus x k) (s.readMem kind size l) := by
  have hmode : (s.mapStatus x k).noVexMode = s.noVexMode := rfl
  have hbytes : (s.mapStatus x k).operandBytes l.seg l.ea size = s.operandBytes l.seg l.ea size := rfl
  have hnote : (s.mapStatus x k).noteRead kind l.seg l.ea size = (s.noteRead kind l.seg l.ea size).mapStatus x k := by
    cases kind <;> rfl
  simp only [State.readMem, hmode, operandStop_mapStatus, hbytes, hnote]
  split
  · rfl
  · cases s.operandStop kind l.bits l.seg l.ea size <;> rfl

theorem src2Legacy_mapStatus (s : State) (p : Prefixes) (len : Nat) (o : RegMem) :
    (s.mapStatus x k).src2Legacy p len o = mapSource (fun t => t.mapStatus x k) (s.src2Legacy p len o) := by
  cases o with
  | reg r => rfl
  | mem m => exact readMem_mapStatus ..

theorem src2Vex_mapStatus (s : State) (vl : VecLen) (p : Prefixes) (len : Nat) (o : RegMem) :
    (s.mapStatus x k).src2Vex vl p len o = mapSource (fun t => t.mapStatus x k) (s.src2Vex vl p len o) := by
  cases o with
  | reg r => rfl
  | mem m => exact readMem_mapStatus ..

theorem src2Evex_mapStatus (s : State) (vl : VecLen) (p : Prefixes) (len : Nat) (o : RegMemBcst) :
    (s.mapStatus x k).src2Evex vl p len o = mapSource (fun t => t.mapStatus x k) (s.src2Evex vl p len o) := by
  cases o with
  | reg r => rfl
  | mem m => exact readMem_mapStatus ..
  | bcst m =>
    have h : (s.mapStatus x k).locate p 8 len m = s.locate p 8 len m := rfl
    simp only [State.src2Evex, h, readMem_mapStatus]
    cases s.readMem .broadcast 8 (s.locate p 8 len m) <;> rfl

/-- The second source of an instruction depends on neither. -/
theorem src2Of_mapStatus (s : State) (i : Instr) :
    (s.mapStatus x k).src2Of i = mapSource (fun t => t.mapStatus x k) (s.src2Of i) := by
  cases i with
  | unpckhpd | unpckhpdRex => exact src2Legacy_mapStatus ..
  | vunpckhpd128C5 | vunpckhpd128C4 | vunpckhpd256C5 | vunpckhpd256C4 => exact src2Vex_mapStatus ..
  | vunpckhpdEvex128 | vunpckhpdEvex256 | vunpckhpdEvex512 => exact src2Evex_mapStatus ..

/-- An execution from a state with another MXCSR and other opmask registers, as far as its write agrees. -/
theorem exec_mapStatus (i : Instr) (s : State)
    (hfin : ∀ b t, s.src2Of i = .ok (b, t) → (t.mapStatus x k).finishOf i b = (t.finishOf i b).mapStatus x k) :
    exec i (s.mapStatus x k) = mapNext (fun t => t.mapStatus x k) (exec i s) := by
  have hg : (s.mapStatus x k).gateOf (gateClassOf i) = s.gateOf (gateClassOf i) := by cases gateClassOf i <;> rfl
  rw [exec_eq, exec_eq, src2Of_mapStatus, hg]
  exact run_map (fun t => t.mapStatus x k) s _ _ _ _ rfl (fun _ => rfl) hfin

end

end Sys2Proof.Machine
end

section
/-!
PROOFS. The obligations of 10_state.md: the machine invariant, what a step leaves unchanged, the modes and the state after reset.
-/
namespace Sys2Proof.Machine

/-- Settles O2, by the soundness of every parser. -/
theorem decodeGivesWellFormed : Obligations.DecodeGivesWellFormed :=
  fun _ _ _ _ h => (decode_sound h).1

/-- Settles O50: an exception leaves what the invariant speaks of, and a completed instruction is a decoded one whose gate was open. -/
theorem stepKeepsInv : Obligations.StepKeepsInv := by
  intro s t hs h
  obtain ⟨-, hr | ⟨i, rest, hd, he⟩⟩ := step_next h
  · exact raises_keeps_inv hs hr
  · exact executed_keeps_inv hs (decode_sound hd).1 he

/-- Settles O47: a step without an exception has completed the decoded instruction. -/
theorem completedStepWritesOnlyDestinationAndRip : Obligations.CompletedStepWritesOnlyDestinationAndRip := by
  intro s t h hx
  obtain ⟨-, hr | ⟨i, rest, hd, -, b, rs, d, rfl⟩⟩ := step_next h
  · obtain ⟨e, ht⟩ := hr.eq
    rw [ht] at hx
    cases hx
  · exact ⟨i, rest, hd, by simp [State.vec]⟩

/-- Settles O49, by the frames of a raised exception and of a completed instruction. -/
theorem gatingStateIsNeverWritten : Obligations.GatingStateIsNeverWritten := by
  intro s t h
  obtain ⟨-, hr | ⟨i, rest, -, -, b, rs, d, rfl⟩⟩ := step_next h
  · obtain ⟨e, ht⟩ := hr.eq
    rw [ht]
    simp
  · simp

/-- Settles O54: another MXCSR commutes with reading the second source, with the write and with every exception. -/
theorem mxcsrIsNeitherReadNorWritten : Obligations.MxcsrIsNeitherReadNorWritten := by
  intro i s x
  exact exec_mapStatus (fun _ => x) id i s fun b t _ => by cases i <;> rfl

/-- Settles O42, along the conditions of `State.mode` in their order. -/
theorem modeRule : Obligations.ModeRule := by
  intro s
  simp only [State.mode, Bool.and_eq_true]
  generalize s.efer.getLsbD 10 = lma, (s.segReg .cs).long = long, s.cr0.getLsbD 0 = pe, s.rflags.getLsbD 17 = vm,
    (s.segReg .cs).big = big
  split
  · next hlong => simp [hlong]
  · next hlong =>
    cases pe with
    | false => simpa using hlong
    | true =>
      cases vm with
      | true => simpa using hlong
      | false => cases big <;> simpa using hlong

/-- Every vector register is 0 after reset (10_state.md R36). -/
theorem reset_vec (n : BitVec 5) : State.reset.vec n = Vector.replicate 8 0 := by
  simp [State.vec, State.reset]

theorem elemOf_zero (j : Nat) : elemOf (Vector.replicate 8 0) j = 0 := by
  by_cases h : j < 8
  · simp [h]
  · exact elemOf_ge _ j (by omega)

/-- Settles O51: every vector register is 0 after reset, memory is empty and rip is FFF0H. -/
theorem resetHasInv : Obligations.ResetHasInv where
  mem := Memory.wf_reset
  proc := by decide
  upper n j _ := by rw [reset_vec, elemOf_zero]
  absent _ n _ := reset_vec n
  rip _ := by decide

/-- Settles O52, register by register along the table of R36. -/
theorem resetValues : Obligations.ResetValues := by
  have hvec : ∀ (n : BitVec 5) (j : Nat), elemOf (State.reset.vec n) j = 0 := fun n j => by rw [reset_vec, elemOf_zero]
  have hopmask : ∀ n : BitVec 3, State.reset.opmask[n.toNat]'n.isLt = 0 := by decide
  have hgpr : ∀ n : BitVec 4, n ≠ 2 → State.reset.reg n = 0 := by decide
  exact ⟨hvec, hopmask, rfl, hgpr, rfl, rfl, rfl, rfl, rfl, rfl, rfl, rfl, rfl, rfl, rfl⟩

end Sys2Proof.Machine
end

section
/-!
SUPPORT. How a memory operand stops an execution: an allowed instruction reaches its operand (`gateOf_of_allowed`) and answers the
operand's stop (`exec_of_operandStop`), and when the checks of 60_exceptions.md rule R181 pass or stop it, check by check.
-/
namespace Sys2Proof.Machine

/-! ## An allowed instruction reaches its operand -/

theorem udLegacy_of_allowed {s : State} (h : s.LegacyAllowed) : s.udLegacy = false := by
  simp [State.udLegacy, h.em, h.osfxsr, h.sse2]

/-- A mode whose memory operands the model addresses is neither real-address nor virtual-8086 mode. -/
theorem noVexMode_of_wide {s : State} (h : s.mode = .long64 ∨ s.mode = .prot32) : s.noVexMode = false := by
  obtain h | h := h <;> simp [State.noVexMode, h]

theorem ne_prot16_of_wide {s : State} (h : s.mode = .long64 ∨ s.mode = .prot32) : s.mode ≠ .prot16 := by
  obtain h | h := h <;> simp [h]

/-- A processor with AVX has the registers of forms 2 and 3 (00_scope.md R7). -/
theorem fits_of_avx {s : State} {vl : VecLen} (hp : s.proc.ok = true) (havx : s.proc.hasAVX = true) (hvl : vl ≠ .v512) :
    s.fits vl = true := by
  simp only [Processor.ok, havx, Bool.not_true, Bool.false_or, Bool.and_eq_true, bne_iff_ne] at hp
  obtain ⟨-, -, hmax⟩ := hp
  have hkl : vl.kl ≤ 4 := by
    cases vl with
    | v512 => exact absurd rfl hvl
    | v128 | v256 => decide
  have hel : 4 ≤ s.proc.maxvl.elements := by
    cases hm : s.proc.maxvl with
    | m128 => exact absurd hm hmax
    | m256 | m512 => decide
  exact decide_eq_true (Nat.le_trans hkl hel)

/-- A processor with AVX512F has registers of every length (00_scope.md R7). -/
theorem fits_of_avx512f {s : State} (vl : VecLen) (hp : s.proc.ok = true) (hf : s.proc.hasAVX512F = true) :
    s.fits vl = true := by
  simp only [Processor.ok, hf, Bool.not_true, Bool.false_or, Bool.and_eq_true, beq_iff_eq] at hp
  obtain ⟨⟨-, -, hmax⟩, -⟩ := hp
  simpa [State.fits, hmax, MaxVL.elements] using kl_le vl

theorem udVex_of_allowed {s : State} {vl : VecLen} (h : s.VexAllowed) (hvl : vl ≠ .v512) : s.udVex vl = false := by
  have havx : s.avxState = true := (avxState_iff s).2 ⟨h.xsave, h.xcr0⟩
  simp [State.udVex, noVexMode_of_wide h.mode, h.osxsave, havx, h.avx, fits_of_avx h.proc h.avx hvl]

theorem udEvex_of_allowed {s : State} {vl : VecLen} (h : s.EvexAllowed vl) : s.udEvex vl = false := by
  have havx : s.avxState = true := (avxState_iff s).2 ⟨h.xsave, h.xcr0⟩
  have hzmm : s.zmmState = true := (zmmState_iff s).2 ⟨h.xsave, h.xcr0Upper⟩
  have hvl : s.vlMissing vl = false := by
    cases vl with
    | v512 => rfl
    | v128 | v256 => simpa [State.vlMissing] using h.avx512vl (by decide)
  simp [State.udEvex, noVexMode_of_wide h.mode, h.osxsave, havx, hzmm, h.avx512f, hvl, fits_of_avx512f vl h.proc h.avx512f]

theorem gate_open {s : State} {ud : Bool} (hud : ud = false) (hts : s.ts = false) : s.gate ud = none := by
  simp [State.gate, hud, hts]

/-- No #UD condition and CR0.TS = 0 open an instruction's gate (60_exceptions.md R173 to R176). -/
theorem gateOf_of_allowed {s : State} {i : Instr} (h : s.Allowed i) (hts : s.ts = false) :
    s.gateOf (gateClassOf i) = none := by
  cases i with
  | unpckhpd | unpckhpdRex => exact gate_open (udLegacy_of_allowed h) hts
  | vunpckhpd128C5 | vunpckhpd128C4 | vunpckhpd256C5 | vunpckhpd256C4 => exact gate_open (udVex_of_allowed h (by decide)) hts
  | vunpckhpdEvex128 | vunpckhpdEvex256 | vunpckhpdEvex512 => exact gate_open (udEvex_of_allowed h) hts

/-! ## A second source that is read completes the execution -/

theorem exec_of_src2Of {s t : State} {i : Instr} {b : VecReg} (hal : s.Allowed i) (hts : s.ts = false)
    (hm : s.mode ≠ .prot16) (h : s.src2Of i = .ok (b, t)) : exec i s = .next (t.finishOf i b) := by
  rw [exec_eq, gateOf_of_allowed hal hts, h, run_ok _ _ _ _ hm]

theorem finishOf_vec (t : State) (i : Instr) (b : VecReg) : (t.finishOf i b).vec i.dest = t.resultOf i b := by
  rw [State.finishOf, State.advance_vec, State.setVec_vec_same]

/-- The frame of a completed instruction that has recorded the reads of its operand (10_state.md R34). -/
theorem wroteAndRead_finishOf (s : State) (i : Instr) (b : VecReg) (e : Load) (n : Nat) :
    s.WroteAndRead (({ s with reads := s.reads ++ [e], draws := n } : State).finishOf i b) i.dest i.length e := by
  rw [State.WroteAndRead, finishOf_vec]
  rfl

/-! ## A stop of the operand is the answer of the execution -/

theorem src2Legacy_error {s : State} {p : Prefixes} {len : Nat} {o : RegMem} {a : MemAccess} {e : Stop}
    (ha : memOfRegMem .legacy 16 o = some a) (h : s.readMem a.kind a.size (s.locate p a.factor len a.mem) = .error e) :
    s.src2Legacy p len o = .error e := by
  cases o with
  | reg r => cases ha
  | mem m => cases ha; exact h

theorem src2Vex_error {s : State} {vl : VecLen} {p : Prefixes} {len : Nat} {o : RegMem} {a : MemAccess} {e : Stop}
    (ha : memOfRegMem .full vl.bytes o = some a) (h : s.readMem a.kind a.size (s.locate p a.factor len a.mem) = .error e) :
    s.src2Vex vl p len o = .error e := by
  cases o with
  | reg r => cases ha
  | mem m => cases ha; exact h

theorem src2Evex_error {s : State} {vl : VecLen} {p : Prefixes} {len : Nat} {o : RegMemBcst} {a : MemAccess} {e : Stop}
    (ha : memOfBcst vl.bytes o = some a) (h : s.readMem a.kind a.size (s.locate p a.factor len a.mem) = .error e) :
    s.src2Evex vl p len o = .error e := by
  cases o with
  | reg r => cases ha
  | mem m => cases ha; exact h
  | bcst m =>
    cases ha
    simp only [State.src2Evex, h]

/-- A stop of the read of its memory operand is a stop of an instruction's second source. -/
theorem src2Of_error {s : State} {i : Instr} {a : MemAccess} {e : Stop} (ha : i.memAccess = some a)
    (h : s.readMem a.kind a.size (s.operandOf i a) = .error e) : s.src2Of i = .error e := by
  cases i with
  | unpckhpd | unpckhpdRex => exact src2Legacy_error ha h
  | vunpckhpd128C5 | vunpckhpd128C4 => exact src2Vex_error (vl := .v128) ha h
  | vunpckhpd256C5 | vunpckhpd256C4 => exact src2Vex_error (vl := .v256) ha h
  | vunpckhpdEvex128 => exact src2Evex_error (vl := .v128) ha h
  | vunpckhpdEvex256 => exact src2Evex_error (vl := .v256) ha h
  | vunpckhpdEvex512 => exact src2Evex_error (vl := .v512) ha h

/-- The aligned operand of form 1 has 16 bytes (20_memory.md R51, R54). -/
theorem size_of_legacy {i : Instr} {a : MemAccess} (ha : i.memAccess = some a) (hk : a.kind = .legacy) : a.size = 16 := by
  have hregMem : ∀ size o, memOfRegMem .full size o ≠ some a := by
    rintro size (r | m) h <;> cases h
    cases hk
  have hbcst : ∀ size o, memOfBcst size o ≠ some a := by
    rintro size (r | m | m) h <;> cases h <;> cases hk
  cases i with
  | unpckhpd p d o | unpckhpdRex p d o =>
    cases o with
    | reg r => cases ha
    | mem m => cases ha; rfl
  | vunpckhpd128C5 | vunpckhpd128C4 | vunpckhpd256C5 | vunpckhpd256C4 => exact absurd ha (hregMem _ _)
  | vunpckhpdEvex128 | vunpckhpdEvex256 | vunpckhpdEvex512 => exact absurd ha (hbcst _ _)

/-- An allowed instruction whose memory operand stops answers that stop. -/
theorem exec_of_operandStop {s : State} {i : Instr} {a : MemAccess} {o : Stop} (ha : i.memAccess = some a)
    (hal : s.Allowed i) (hts : s.ts = false) (hm : s.mode = .long64 ∨ s.mode = .prot32)
    (ho : s.operandStop a.kind (s.operandOf i a).bits (s.operandOf i a).seg (s.operandOf i a).ea a.size = some o) :
    exec i s = o := by
  have hread : s.readMem a.kind a.size (s.operandOf i a) = .error o := by simp [State.readMem, noVexMode_of_wide hm, ho]
  rw [exec_eq, gateOf_of_allowed hal hts, src2Of_error ha hread]
  simp [State.run, ne_prot16_of_wide hm]

/-! ## The checks of an operand, in their order (60_exceptions.md R181) -/

theorem pastTop_false {bits size : Nat} {ea : Word64} (h : ea.toNat + size ≤ 2 ^ bits) : pastTop bits ea size = false := by
  simpa [pastTop] using h

/-- Form 1's operand is misaligned when its linear address is not a multiple of 16 (20_memory.md R54). -/
theorem misaligned16_legacy (lin : Word64) : misaligned16 .legacy lin = decide (lin.toNat % 16 ≠ 0) := by
  simp [misaligned16, ← BitVec.toNat_inj, bne, BEq.beq]

theorem misaligned16_false {k : OperandKind} {lin : Word64} (h : k = .legacy → lin.toNat % 16 = 0) :
    misaligned16 k lin = false := by
  cases k with
  | legacy => simpa [misaligned16_legacy] using h rfl
  | full | broadcast => rfl

section
variable {s : State} {k : OperandKind} {bits size : Nat} {n : SegName} {ea : Word64} {o : Stop}

theorem operandStop_of_addressStop (htop : ea.toNat + size ≤ 2 ^ bits) (h : s.addressStop k n ea size = some o) :
    s.operandStop k bits n ea size = some o := by
  simp [State.operandStop, pastTop_false htop, h]

/-- An operand whose address is good and whose pages do not fault is stopped by alignment checking and by storage only. -/
theorem operandStop_of_mapped (htop : ea.toNat + size ≤ 2 ^ bits) (hok : s.addressOk n ea size = true)
    (hal : k = .legacy → (s.linear n ea 0).toNat % 16 = 0)
    (hmap : ∀ i < size, ∃ pa, s.translate (s.linear n ea i) = .ok pa) :
    s.operandStop k bits n ea size =
      (s.alignmentStop k (s.linear n ea 0) size).orElse fun _ => s.storageStop k n ea size := by
  have haddr : s.addressStop k n ea size = none := by simp [State.addressStop, misaligned16_false hal, hok]
  have hpage : s.pageStop n ea size = none := by simp [State.pageStop, faultingBytes_nil s n ea size hmap]
  simp [State.operandStop, pastTop_false htop, haddr, hpage]

end

end Sys2Proof.Machine
end

section
/-!
SUPPORT. Addresses as numbers: the effective address up to multiples of 2^A (20_memory.md R58), the linear address (R59), the
canonical test and the segment check (R60); the error code of a page fault (R61) and the read oracle's answer (R66).
-/
namespace Sys2Proof.Machine

theorem low32_toNat (a : Word64) : (low32 a).toNat = a.toNat % 2 ^ 32 := by
  rw [low32, BitVec.toNat_setWidth_of_le (by decide), BitVec.toNat_setWidth]

/-! ## The effective address, modulo 2^A -/

section
variable {bits : Nat} (hb : bits = 32 ∨ bits = 64)
include hb

theorem narrow_toNat (a : Word64) : (narrow bits a).toNat = a.toNat % 2 ^ bits := by
  obtain rfl | rfl := hb
  · exact low32_toNat a
  · exact (Nat.mod_eq_of_lt a.isLt).symm

/-- What agrees modulo 2^64 agrees modulo 2^A. -/
theorem modEq_of_modEq_64 {x y : Int} (h : x ≡ y [ZMOD 2 ^ 64]) : x ≡ y [ZMOD 2 ^ bits] := by
  obtain rfl | rfl := hb
  · exact h.of_dvd (by decide)
  · exact h

theorem narrow_modEq (a : Word64) : ((narrow bits a).toNat : Int) ≡ a.toNat [ZMOD 2 ^ bits] := by
  rw [narrow_toNat hb, Int.natCast_mod, Nat.cast_pow]
  exact Int.mod_modEq ..

theorem add_modEq {a b : Word64} {x y : Int} (ha : (a.toNat : Int) ≡ x [ZMOD 2 ^ bits])
    (h : (b.toNat : Int) ≡ y [ZMOD 2 ^ bits]) : ((a + b).toNat : Int) ≡ x + y [ZMOD 2 ^ bits] := by
  have hadd : ((a + b).toNat : Int) ≡ a.toNat + b.toNat [ZMOD 2 ^ bits] :=
    modEq_of_modEq_64 hb (by rw [BitVec.toNat_add]; push_cast; exact Int.mod_modEq ..)
  exact hadd.trans (ha.add h)

/-- A word read unsigned and read signed agree. -/
theorem toNat_modEq_toInt (a : Word64) : (a.toNat : Int) ≡ a.toInt [ZMOD 2 ^ bits] :=
  modEq_of_modEq_64 hb (by rw [BitVec.toInt_eq_toNat_bmod]; exact (Int.bmod_emod ..).symm)

theorem signExtend_modEq {w : Nat} (d : BitVec w) (hw : w ≤ 64) :
    ((d.signExtend 64).toNat : Int) ≡ d.toInt [ZMOD 2 ^ bits] := by
  rw [← BitVec.toInt_signExtend_of_le hw]
  exact toNat_modEq_toInt hb _

/-- R103, R106: a displacement is its signed value, a one-byte one times N. -/
theorem dispValue_modEq (n : Nat) (d : Disp) : ((dispValue n d).toNat : Int) ≡ dispInt n d [ZMOD 2 ^ bits] := by
  cases d with
  | none => rfl
  | d8 d =>
    have hmul : ((dispValue n (.d8 d)).toNat : Int) ≡ (d.signExtend 64).toNat * n [ZMOD 2 ^ bits] :=
      modEq_of_modEq_64 hb (by simp [dispValue, BitVec.toNat_mul, Int.ModEq])
    exact hmul.trans ((signExtend_modEq hb d (by decide)).mul_right _)
  | d32 d => exact signExtend_modEq hb d (by decide)

/-- R102: an index is its register's value times 2^scale, narrowed or not. -/
theorem indexValue_modEq (s : State) (ix : Index) : ((s.indexValue bits ix).toNat : Int) ≡ s.indexNat ix [ZMOD 2 ^ bits] := by
  cases ix with
  | none => rfl
  | some r =>
    obtain ⟨x, sc⟩ := r
    have hshift : ((s.indexValue bits (some (x, sc))).toNat : Int) ≡
        (narrow bits (s.reg x)).toNat * 2 ^ sc.toNat [ZMOD 2 ^ bits] :=
      modEq_of_modEq_64 hb (by simp [State.indexValue, BitVec.toNat_shiftLeft, Nat.shiftLeft_eq, Int.ModEq])
    have h := hshift.trans ((narrow_modEq hb (s.reg x)).mul_right (2 ^ sc.toNat))
    simpa [State.indexNat] using h

/-- The address that results is the representative of its sum below 2^A. -/
theorem narrow_eq_emod {a : Word64} {x : Int} (h : (a.toNat : Int) ≡ x [ZMOD 2 ^ bits]) :
    ((narrow bits a).toNat : Int) = x % 2 ^ bits := by
  rw [narrow_toNat hb]
  push_cast
  exact h

end

/-! ## The linear address -/

/-- R59: a linear address is the sum of segment base, effective address and offset, modulo 2^64 or 2^32. -/
theorem linear_toNat (s : State) (g : SegName) (ea : Word64) (i : Nat) :
    (s.linear g ea i).toNat = ((s.segBase g).toNat + ea.toNat + i) % 2 ^ (if s.mode = .long64 then 64 else 32) := by
  unfold State.linear
  split
  · simp
  · rw [low32_toNat]
    simp only [BitVec.toNat_add, BitVec.toNat_ofNat]
    omega

/-! ## The canonical test and the segment check -/

/-- R60, R71: the bits from LinearBits-1 up are all equal exactly for a signed value from -2^(LinearBits-1) up to
2^(LinearBits-1). -/
theorem canonical_iff_toInt (s : State) (a : Word64) :
    s.canonical a = true ↔ -2 ^ (s.proc.linearBits.bits - 1) ≤ a.toInt ∧ a.toInt < 2 ^ (s.proc.linearBits.bits - 1) := by
  simp only [State.canonical, Bool.or_eq_true, beq_iff_eq, ← BitVec.toInt_inj, BitVec.toInt_sshiftRight,
    Int.shiftRight_eq_div_pow]
  have hzero : (0 : Word64).toInt = 0 := by decide
  have hones : (BitVec.allOnes 64).toInt = -1 := by decide
  rw [hzero, hones]
  cases s.proc.linearBits with
  | b48 | b57 =>
    simp only [LinearBits.bits]
    omega

/-- Selectors 0 to 3 are the null ones (log 42). -/
theorem null_eq_false_iff (r : SegReg) : r.null = false ↔ 4 ≤ r.selector.toNat := by
  have hsel := r.selector.isLt
  simp only [SegReg.null, beq_eq_false_iff_ne, ne_eq, ← BitVec.toNat_inj, BitVec.extractLsb'_toNat, Nat.shiftRight_eq_div_pow]
  change ¬ _ = 0 ↔ _
  omega

/-- With no rule for an effective address the segment's limit decides (log 6). -/
theorem withinSegment_of_no_rule {s : State} {g : SegName} {off : Nat}
    (h : ∀ r ∈ s.segRules, r.seg = g → off < r.first ∨ r.last < off) :
    s.withinSegment g off = decide (off ≤ (s.segReg g).limit.toNat) := by
  have hnone : s.segRules.find? (fun r => r.seg == g && decide (r.first ≤ off) && decide (off ≤ r.last)) = none := by
    rw [List.find?_eq_none]
    intro r hr
    simp only [Bool.and_eq_true, beq_iff_eq, decide_eq_true_eq]
    rintro ⟨⟨hseg, hfirst⟩, hlast⟩
    have := h r hr hseg
    omega
  simp [State.withinSegment, hnone]

/-- R60 in `Long64`. -/
theorem addressOk_long64 {s : State} (hm : s.mode = .long64) (g : SegName) (ea : Word64) (size : Nat) :
    s.addressOk g ea size = true ↔ ∀ i < size, s.canonical (s.linear g ea i) = true := by
  simp [State.addressOk, hm]

/-- R60 outside `Long64`. -/
theorem addressOk_segment {s : State} (hm : s.mode ≠ .long64) (g : SegName) (ea : Word64) (size : Nat) :
    s.addressOk g ea size = true ↔ 4 ≤ (s.segReg g).selector.toNat ∧ (s.segReg g).readable = true ∧
      ∀ i < size, s.withinSegment g (ea.toNat + i) = true := by
  simp [State.addressOk, hm, State.segCheck, ← null_eq_false_iff, and_assoc]

/-! ## The error code of a page fault -/

/-- The bits of a page fault's error code (R61). -/
theorem pfCode_bits : ∀ user present rsvd pk : Bool,
    (pfCode user present rsvd pk).getLsbD 0 = present ∧ (pfCode user present rsvd pk).getLsbD 1 = false ∧
    (pfCode user present rsvd pk).getLsbD 2 = user ∧ (pfCode user present rsvd pk).getLsbD 3 = rsvd ∧
    (pfCode user present rsvd pk).getLsbD 4 = false ∧ (pfCode user present rsvd pk).getLsbD 5 = pk ∧
    (pfCode user present rsvd pk).toNat < 64 := by
  decide

/-- A translation that fails is that of the first rule of the page, which answers a fault for this privilege level (R61). -/
theorem translate_error {s : State} {a : Word64} {c : BitVec 32} (h : s.translate a = .error c) :
    ∃ r ∈ s.pages, r.page = a.toNat / Config.pageBytes ∧ ∃ present rsvd pk,
      (if s.cpl = 3 then r.user else r.supervisor) = .fault present rsvd pk ∧
      c = pfCode (decide (s.cpl = 3)) present rsvd pk := by
  unfold State.translate at h
  split at h
  · split at h
    · cases h
    · next r hr =>
      have hpage := List.find?_some hr
      refine ⟨r, List.mem_of_find?_eq_some hr, by simpa using hpage, ?_⟩
      split at h
      · cases h
      · next present rsvd pk hf => cases h; exact ⟨present, rsvd, pk, hf, rfl⟩
  · cases h

/-! ## The read oracle -/

/-- A byte that memory holds is read as the first answer for the load and the address, else as memory's byte (R66). -/
theorem readByte_of_held {s : State} {a : Word64} {x : Byte} (h : Memory.read s.mem (s.physical a) = some x) :
    s.readByte a = some ((s.oracleAnswer a).getD x) := by
  simp [State.readByte, h]

end Sys2Proof.Machine
end

section
/-!
SUPPORT. Form 1's operand of which memory holds the upper eight bytes (20_memory.md R55): the element, the record and the storage of an
execution that fetches only those, and the refusal of one that fetches all sixteen.
-/
namespace Sys2Proof.Machine

/-- One word of an operand, whatever the others are. -/
theorem elemOf_operand_word {s : State} {n : SegName} {ea : Word64} {size j : Nat} {w : Word64} (hj : j < 8)
    (hsize : 8 * j + 8 ≤ size) (hw : s.HoldsWord n ea (8 * j) w) :
    elemOf (bytesToVec (s.operandBytes n ea size)) j = w := by
  rw [elemOf_bytesToVec _ _ hj]
  refine bytesToWord_of_bytes _ _ fun i hi => ?_
  rw [List.getElem?_take, if_pos hi, List.getElem?_drop]
  exact operandBytes_getElem s n ea (8 * j) size w hw i hi (by omega)

/-- A partial fetch records the reads of the upper eight bytes. -/
theorem loadOf_upper {s : State} {l : Located} {w : Word64} (hfirst : s.firstRead .legacy = 8)
    (hw : s.HoldsWord l.seg l.ea 8 w) : s.loadOf .legacy l.seg l.ea 16 = s.loadEvents l 8 16 fun _ => w := by
  rw [State.loadOf, State.loadEvents, hfirst]
  refine List.map_congr_left fun i hi => ?_
  have hi := List.mem_range.1 hi
  have hmod : (8 + i) % 8 = i := by omega
  simp [(hw i hi).2, hmod]

theorem physical_of_translate {s : State} {a : Word64} {pa : Nat} (h : s.translate a = .ok pa) : s.physical a = pa := by
  simp [State.physical, h]

/-- A word that is held is held byte by byte. -/
theorem read_isSome_of_holdsWord {s : State} {n : SegName} {ea : Word64} {off i : Nat} {w : Word64}
    (hw : s.HoldsWord n ea off w) (hi : i < 8) : (Memory.read s.mem (s.physical (s.linear n ea (off + i)))).isSome = true := by
  obtain ⟨b, hb, -⟩ := Option.map_eq_some_iff.1 (hw i hi).2
  simp [hb]

section
variable {s : State} {k : OperandKind} {n : SegName} {ea : Word64} {size : Nat}
  (hmap : ∀ i < size, ∃ pa, s.translate (s.linear n ea i) = .ok pa ∧ s.isDevice pa = false)
include hmap

theorem no_device : (List.range size).any (fun i => s.isDevice (s.physical (s.linear n ea i))) = false := by
  rw [List.any_eq_false]
  intro i hi
  obtain ⟨pa, ht, hd⟩ := hmap i (List.mem_range.1 hi)
  simp [physical_of_translate ht, hd]

/-- An operand in ordinary memory that holds every byte the execution reads is not refused. -/
theorem storageStop_none (hheld : ∀ i < size, s.firstRead k ≤ i →
    (Memory.read s.mem (s.physical (s.linear n ea i))).isSome = true) : s.storageStop k n ea size = none := by
  rw [State.storageStop, no_device hmap, if_neg (by decide), if_neg]
  simp only [List.any_eq_true, List.mem_range, Bool.and_eq_true, decide_eq_true_eq, not_exists, not_and]
  intro i hi habsent hread
  have hsome := hheld i hi hread
  rw [Option.isNone_iff_eq_none.1 habsent] at hsome
  cases hsome

/-- An operand in ordinary memory that lacks a byte the execution reads is refused. -/
theorem storageStop_absent {i : Nat} (hi : i < size) (hread : s.firstRead k ≤ i)
    (habsent : Memory.read s.mem (s.physical (s.linear n ea i)) = none) :
    s.storageStop k n ea size = some (.refused .memoryAbsent) := by
  rw [State.storageStop, no_device hmap, if_neg (by decide), if_pos]
  simp only [List.any_eq_true, List.mem_range, Bool.and_eq_true, decide_eq_true_eq]
  exact ⟨i, hi, by simp [habsent], hread⟩

end

/-! ## Form 1 with a memory operand -/

/-- The elements of form 1's result (40_unpckhpd_sse_vex.md R131). -/
theorem elemOf_form1Result (old b : VecReg) :
    elemOf (keepUpper (interleaveHigh .v128 old b) old) 0 = elemOf old 1 ∧
    elemOf (keepUpper (interleaveHigh .v128 old b) old) 1 = elemOf b 1 ∧
    ∀ j, 2 ≤ j → elemOf (keepUpper (interleaveHigh .v128 old b) old) j = elemOf old j := by
  refine ⟨?_, ?_, fun j hj => ?_⟩
  · rw [elemOf_keepUpper, elemOf_interleaveHigh]; rfl
  · rw [elemOf_keepUpper, elemOf_interleaveHigh]; rfl
  · rw [elemOf_keepUpper, if_neg (by omega)]

/-- What the two rows of form 1 have in common. -/
theorem form1_mem {p : Prefixes} {d : BitVec 5} {m : MemOperand} {i : Instr}
    (hi : i = .unpckhpd p d (.mem m) ∨ i = .unpckhpdRex p d (.mem m)) (s : State) :
    (s.LegacyAllowed → s.Allowed i) ∧ i.memAccess = some ⟨.legacy, 16, 1, m⟩ ∧
    s.operandOf i ⟨.legacy, 16, 1, m⟩ = s.locate p 1 i.length m ∧
    s.src2Of i = s.readMem .legacy 16 (s.locate p 1 i.length m) ∧ i.dest = d ∧
    ∀ t b, State.resultOf t i b = keepUpper (interleaveHigh .v128 (t.vec d) b) (t.vec d) := by
  obtain rfl | rfl := hi <;> exact ⟨id, rfl, rfl, rfl, rfl, fun _ _ => rfl⟩

/-- Form 1 with a memory operand that passes every check completes with its result. -/
theorem exec_form1_mem {s : State} {p : Prefixes} {d : BitVec 5} {m : MemOperand} {i : Instr} {l : Located}
    (hal : s.LegacyAllowed) (hts : s.ts = false) (hi : i = .unpckhpd p d (.mem m) ∨ i = .unpckhpdRex p d (.mem m))
    (hl : l = s.locate p 1 i.length m) (hm : s.mode = .long64 ∨ s.mode = .prot32)
    (hstop : s.operandStop .legacy l.bits l.seg l.ea 16 = none) :
    ∃ t, exec i s = .next t ∧ s.WroteAndRead t d i.length (s.loadOf .legacy l.seg l.ea 16) ∧
      t.vec d = keepUpper (interleaveHigh .v128 (s.vec d) (bytesToVec (s.operandBytes l.seg l.ea 16))) (s.vec d) := by
  obtain ⟨hallowed, -, -, hsrc, rfl, hres⟩ := form1_mem hi s
  have hread : s.src2Of i = .ok (bytesToVec (s.operandBytes l.seg l.ea 16), s.noteRead .legacy l.seg l.ea 16) := by
    rw [hsrc, ← hl]
    simp [State.readMem, noVexMode_of_wide hm, hstop]
  exact ⟨_, exec_of_src2Of (hallowed hal) hts (ne_prot16_of_wide hm) hread, wroteAndRead_finishOf s i _ _ (s.draws + 1),
    by rw [finishOf_vec, hres]; rfl⟩

end Sys2Proof.Machine
end

section
/-!
PROOFS. The obligations of 20_memory.md: the operand's checks, its address, the page fault's error code, the read oracle and the
memory that no instruction writes.
-/
namespace Sys2Proof.Machine

/-- Settles O19, on the free value of R55: a partial fetch reads held bytes only, a full one reads an absent byte. -/
theorem form1PartialFetch : Obligations.Form1PartialFetch := by
  intro s p d m i w l hal hts hi hl haddr halign hw hlow ⟨j, hj, pa, htrans, habsent⟩
  have hmap : ∀ q < 16, ∃ pa, s.translate (s.linear l.seg l.ea q) = .ok pa ∧ s.isDevice pa = false := by
    intro q hq
    by_cases hq8 : q < 8
    · exact hlow q hq8
    · obtain ⟨q, rfl⟩ := Nat.exists_eq_add_of_le (Nat.le_of_not_lt hq8)
      exact (hw q (by omega)).1
  have hstop : s.operandStop .legacy l.bits l.seg l.ea 16 = s.storageStop .legacy l.seg l.ea 16 := by
    rw [operandStop_of_mapped haddr.top haddr.address (fun _ => halign) fun q hq => (hmap q hq).imp fun _ h => h.1]
    simp [State.alignmentStop]
  cases hfetch : Config.legacyPartialFetch s.draws with
  | false =>
    have hfirst : s.firstRead .legacy = 0 := by simp [State.firstRead, hfetch]
    have hstorage : s.storageStop .legacy l.seg l.ea 16 = some (.refused .memoryAbsent) :=
      storageStop_absent hmap (by omega : j < 16) (by omega) (by rw [physical_of_translate htrans, habsent])
    obtain ⟨hallowed, hacc, hop, -⟩ := form1_mem hi s
    exact .inl (exec_of_operandStop hacc (hallowed hal) hts haddr.mode (by rw [hop, ← hl]; exact hstop.trans hstorage))
  | true =>
    have hfirst : s.firstRead .legacy = 8 := by simp [State.firstRead, hfetch]
    have hstorage : s.storageStop .legacy l.seg l.ea 16 = none := by
      refine storageStop_none hmap fun q hq hread => ?_
      obtain ⟨q, rfl⟩ := Nat.exists_eq_add_of_le (hfirst ▸ hread)
      exact read_isSome_of_holdsWord hw (by omega)
    obtain ⟨t, ht, hframe, hvec⟩ := exec_form1_mem hal hts hi hl haddr.mode (hstop.trans hstorage)
    rw [loadOf_upper hfirst hw] at hframe
    obtain ⟨hzero, hone, hupper⟩ := elemOf_form1Result (s.vec d) (bytesToVec (s.operandBytes l.seg l.ea 16))
    rw [elemOf_operand_word (j := 1) (by decide) (by decide) hw] at hone
    exact .inr ⟨t, ht, hframe, hvec ▸ hzero, hvec ▸ hone, hvec ▸ hupper⟩

/-- Settles O30: the misaligned operand is stopped by the address check, before every page and storage check. -/
theorem form1MisalignedRaisesGp : Obligations.Form1MisalignedRaisesGp := by
  rintro s i a l ha hkind hal hts hm rfl htop hmis hgood
  have hsize : a.size = 16 := size_of_legacy ha hkind
  refine exec_of_operandStop ha hal hts hm (operandStop_of_addressStop (by rwa [hsize]) ?_)
  rw [hkind, hsize, State.addressStop, misaligned16_legacy, decide_eq_true hmis]
  cases hok : s.addressOk (s.operandOf i a).seg (s.operandOf i a).ea 16 with
  | true => rfl
  | false =>
    have hseg : (s.operandOf i a).seg ≠ .ss := hgood.resolve_right (by simp [hok])
    rw [if_neg hseg]
    rfl

/-- Settles O32: the bad address is stopped by the address check, before every page and storage check. -/
theorem badAddressRaisesGpOrSs : Obligations.BadAddressRaisesGpOrSs := by
  rintro s i a l ha hal hts hm rfl htop halign hbad
  refine exec_of_operandStop ha hal hts hm (operandStop_of_addressStop htop ?_)
  rw [State.addressStop, misaligned16_false halign, hbad]
  rfl

/-- Settles O35: no check before alignment checking stops the operand, and alignment checking does. -/
theorem fullWidthMisalignedIsUnknownFault : Obligations.FullWidthMisalignedIsUnknownFault := by
  rintro s i a l ha hkind hal hts rfl haddr hmap ham hac hcpl hmis
  refine exec_of_operandStop ha hal hts haddr.mode ?_
  rw [operandStop_of_mapped haddr.top haddr.address (by simp [hkind]) hmap]
  simp [State.alignmentStop, State.alignmentChecking, ham, hac, hcpl, hmis, hkind]

/-- Settles O37, as congruences modulo 2^A of the parts of the sum. -/
theorem effectiveAddressIsModularSum : Obligations.EffectiveAddressIsModularSum := by
  intro s bits n len b ix d d32 hb _
  have hbase := narrow_modEq hb (s.reg b)
  have hindex := indexValue_modEq hb s ix
  have hdisp := dispValue_modEq hb n d
  have hd32 := signExtend_modEq hb d32 (by decide)
  exact ⟨narrow_eq_emod hb (add_modEq hb hbase hdisp),
    narrow_eq_emod hb (add_modEq hb (add_modEq hb hbase hindex) hdisp),
    narrow_eq_emod hb (add_modEq hb hindex hd32)⟩

/-- Settles O40: the linear address is a sum modulo 2^64 or 2^32, and the segment base depends on the mode. -/
theorem linearAddressRule : Obligations.LinearAddressRule := by
  intro s g ea i
  refine ⟨fun hm hg => ?_, fun hm hfs hgs => ?_, fun hm => ?_⟩
  · have hbase : s.segBase g = (s.segReg g).base := by
      obtain rfl | rfl := hg <;> simp [State.segBase, hm]
    rw [linear_toNat, if_pos hm, hbase]
  · have hbase : s.segBase g = 0 := by
      cases g with
      | fs => exact absurd rfl hfs
      | gs => exact absurd rfl hgs
      | es | cs | ss | ds => simp [State.segBase, hm]
    rw [linear_toNat, if_pos hm, hbase]
    simp
  · have hbase : s.segBase g = (s.segReg g).base := by simp [State.segBase, hm]
    rw [linear_toNat, if_neg hm, hbase]

/-- Settles O41, by the check of each mode and the limit test. -/
theorem operandAddressCheck : Obligations.OperandAddressCheck := by
  intro s g ea size _
  refine ⟨fun hm => addressOk_long64 hm g ea size, fun hm => addressOk_segment (by simp [hm]) g ea size, fun off h => ?_⟩
  rw [withinSegment_of_no_rule h, decide_eq_true_iff]

/-- Settles O43: the signed range of `canonical_iff_toInt`, read unsigned. -/
theorem canonicalMeansOutsideTheHole : Obligations.CanonicalMeansOutsideTheHole := by
  intro s a
  rw [canonical_iff_toInt, BitVec.toInt_eq_toNat_cond]
  have := a.isLt
  cases s.proc.linearBits with
  | b48 | b57 =>
    simp only [LinearBits.bits]
    split <;> omega

/-- Settles O44: the code is `pfCode` of the page's rule and the privilege level. -/
theorem pageFaultErrorCode : Obligations.PageFaultErrorCode := by
  intro s a c h
  obtain ⟨r, hr, hpage, present, rsvd, pk, hf, rfl⟩ := translate_error h
  exact ⟨r, hr, present, rsvd, pk, hpage, hf, pfCode_bits _ present rsvd pk⟩

/-- Settles O48, by the frames of a raised exception and of a completed instruction. -/
theorem memoryIsNeverWritten : Obligations.MemoryIsNeverWritten := by
  intro s t i h
  have hmem : t.mem = s.mem := by
    obtain hr | ⟨-, b, rs, d, rfl⟩ := exec_next h
    · obtain ⟨e, ht⟩ := hr.eq
      rw [ht]
    · rfl
  exact ⟨hmem, fun a => by rw [hmem]⟩

/-- Settles O60, by which answer the search of the oracle finds first. -/
theorem oracleAnswersEveryByteRead : Obligations.OracleAnswersEveryByteRead := by
  intro s a x hx
  rw [readByte_of_held hx]
  constructor
  · intro hnone
    have hans : s.oracleAnswer a = none := by simpa [State.oracleAnswer] using hnone
    rw [hans, Option.getD_none]
  · intro pre r post horacle hload haddr hpre
    have hans : s.oracleAnswer a = some r.value := by
      have hskip : pre.find? (fun r => r.load == s.reads.length && r.addr == a) = none := by simpa using hpre
      simp [State.oracleAnswer, horacle, List.find?_append, hskip, hload, haddr]
    rw [hans, Option.getD_some]

end Sys2Proof.Machine
end

section
/-!
SUPPORT. What the decoder's fields are of the bytes the encoder writes: register numbers, displacement, SIB and ModRM, the payloads of
VEX and EVEX (30_encoding.md rules R86 to R89, R93 to R99, R101 to R103).
-/
namespace Sys2Proof

/-! ## Register numbers -/

theorem num4_low3 : ∀ r : BitVec 4, num4 (r.getLsbD 3) (low3 r) = r := by decide

theorem num5_low3 : ∀ r : BitVec 5, num5 (r.getLsbD 4) (r.getLsbD 3) (low3 r) = r := by decide

theorem num5_false_low3 : ∀ r : BitVec 5, r.toNat < 16 → num5 false (r.getLsbD 3) (low3 r) = r := by decide

/-- A number below 8 has no extension bit. -/
theorem ext_of_lt_8 : ∀ r : BitVec 5, r.toNat < 8 → r.getLsbD 3 = false ∧ r.getLsbD 4 = false := by decide

theorem ext4_of_lt_8 : ∀ r : BitVec 4, r.toNat < 8 → r.getLsbD 3 = false := by decide

theorem num5_false_false_low3 {r : BitVec 5} (h : r.toNat < 8) : num5 false false (low3 r) = r := by
  simpa only [(ext_of_lt_8 r h).1] using num5_false_low3 r (by omega)

theorem setWidth_extract4 : ∀ r : BitVec 5, r.toNat < 16 → (r.extractLsb' 0 4).setWidth 5 = r := by decide

theorem extract4_and_7 : ∀ r : BitVec 5, r.toNat < 8 → r.extractLsb' 0 4 &&& 7 = r.extractLsb' 0 4 := by decide

theorem ofBool_append_extract4 : ∀ r : BitVec 5, BitVec.ofBool (r.getLsbD 4) ++ r.extractLsb' 0 4 = r := by decide

/-! ## Displacement, SIB and ModRM (R101 to R103) -/

@[simp] theorem modrm_mod : ∀ (mod : BitVec 2) (g rm : BitVec 3), (modrm mod g rm).extractLsb' 6 2 = mod := by decide
@[simp] theorem modrm_reg : ∀ (mod : BitVec 2) (g rm : BitVec 3), (modrm mod g rm).extractLsb' 3 3 = g := by decide
@[simp] theorem modrm_rm : ∀ (mod : BitVec 2) (g rm : BitVec 3), (modrm mod g rm).extractLsb' 0 3 = rm := by decide

/-- A SIB byte has the fields of a ModRM byte. -/
theorem sibByte_some (r : BitVec 4) (scale : BitVec 2) (lo : BitVec 3) :
    sibByte (some (r, scale)) lo = modrm scale (low3 r) lo := rfl

theorem sibByte_none (lo : BitVec 3) : sibByte none lo = modrm 0 4 lo := rfl

@[simp] theorem sibByte_base (ix : Index) (lo : BitVec 3) : (sibByte ix lo).extractLsb' 0 3 = lo := by
  cases ix with
  | none => rw [sibByte_none, modrm_rm]
  | some r => rw [sibByte_some, modrm_rm]

/-- The index that `takeSib` reads from a SIB byte. -/
theorem index_of_sibByte {bound : Nat} {ix : Index} (h : indexOk bound ix = true) (lo : BitVec 3) :
    (if num4 ix.xbit ((sibByte ix lo).extractLsb' 3 3) = 4 then none
      else some (num4 ix.xbit ((sibByte ix lo).extractLsb' 3 3), (sibByte ix lo).extractLsb' 6 2)) = ix := by
  cases ix with
  | none => rw [sibByte_none, modrm_reg]; rfl
  | some r =>
    obtain ⟨r, scale⟩ := r
    have hne : r ≠ 4 := by simpa [indexOk] using (Bool.and_eq_true_iff.1 h).2
    simp only [sibByte_some, modrm_reg, modrm_mod, Index.xbit, num4_low3, if_neg hne]

theorem d32Bytes_joined (d : BitVec 32) :
    d.extractLsb' 24 8 ++ d.extractLsb' 16 8 ++ d.extractLsb' 8 8 ++ d.extractLsb' 0 8 = d := by
  rw [BitVec.extractLsb'_append_extractLsb'_eq_extractLsb' (show 24 = 16 + 8 from rfl),
    BitVec.extractLsb'_append_extractLsb'_eq_extractLsb' (show 16 = 8 + 8 from rfl),
    BitVec.extractLsb'_append_extractLsb'_eq_extractLsb' (show 8 = 0 + 8 from rfl)]
  exact BitVec.extractLsb'_eq_self

@[simp] theorem takeD32_bytes (d : BitVec 32) (t : List Byte) : takeD32 (d32Bytes d ++ t) = .ok (d, t) := by
  simp [takeD32, d32Bytes, d32Bytes_joined]

@[simp] theorem takeDisp_bytes (d : Disp) (t : List Byte) : takeDisp d.mod (d.bytes ++ t) = .ok (d, t) := by
  cases d with
  | none => rfl
  | d8 d => rfl
  | d32 d => simp [takeDisp, Disp.mod, Disp.bytes]

theorem Disp.mod_ne_3 (d : Disp) : d.mod ≠ 3 := by
  cases d <;> simp [Disp.mod]

/-- With a base whose low bits are 101b there is a displacement, so that `mod` is not 00b. -/
theorem mod_of_dispOk {b : BitVec 4} {d : Disp} (h : dispOk b d = true) : ¬ (low3 b = 5 ∧ d.mod = 0) := by
  cases d with
  | none => simpa [dispOk, Disp.mod] using h
  | d8 d | d32 d => simp [Disp.mod]

theorem parseRM_of_takeMem {mod : BitVec 2} {x b : Bool} {rm : BitVec 3} {bs rest : List Byte} {op : MemOperand}
    (hmod : mod ≠ 3) (h : takeMem mod rm x b bs = .ok (op, rest)) (g : BitVec 3) :
    parseRM true x b (modrm mod g rm :: bs) = .ok (g, some (.mem op), rest) := by
  simp only [parseRM, modrm_mod, modrm_reg, modrm_rm, if_neg hmod, if_true, h]

/-- ModRM, SIB and displacement of a memory operand read back, with its X and B. -/
theorem parseRM_mem_bytes {bound : Nat} {m : MemOperand} (h : m.wellFormed bound = true) (g : BitVec 3) (t : List Byte) :
    parseRM true m.xbit m.bbit (m.bytes g ++ t) = .ok (g, some (.mem m), t) := by
  cases m with
  | base b d =>
    simp only [MemOperand.wellFormed, Bool.and_eq_true, bne_iff_ne] at h
    obtain ⟨⟨-, h4⟩, hd⟩ := h
    have h4 : low3 b ≠ 4 := h4
    rw [MemOperand.bytes, MemOperand.xbit, MemOperand.bbit, List.cons_append]
    refine parseRM_of_takeMem d.mod_ne_3 ?_ g
    simp only [takeMem, if_neg h4, if_neg (mod_of_dispOk hd), takeDisp_bytes, num4_low3]
  | sib b ix d =>
    simp only [MemOperand.wellFormed, Bool.and_eq_true] at h
    obtain ⟨⟨-, hix⟩, hd⟩ := h
    rw [MemOperand.bytes, MemOperand.xbit, MemOperand.bbit, List.cons_append]
    refine parseRM_of_takeMem d.mod_ne_3 ?_ g
    simp only [takeMem, if_true, List.cons_append, takeSib, sibByte_base, if_neg (mod_of_dispOk hd), takeDisp_bytes,
      num4_low3, index_of_sibByte hix]
  | sibNoBase ix d =>
    rw [MemOperand.bytes, MemOperand.xbit, MemOperand.bbit, List.cons_append]
    refine parseRM_of_takeMem (mod := 0) (by decide) ?_ g
    simp only [takeMem, if_true, List.cons_append, takeSib, sibByte_base, and_self, takeD32_bytes,
      index_of_sibByte (bound := bound) h]
  | disp32 d =>
    rw [MemOperand.bytes, MemOperand.xbit, MemOperand.bbit, List.cons_append]
    refine parseRM_of_takeMem (mod := 0) (by decide) ?_ g
    simp only [takeMem, if_neg (show (5 : BitVec 3) ≠ 4 by decide), and_self, if_true, takeD32_bytes]

theorem parseRM_reg (wide x b : Bool) (g lo : BitVec 3) (t : List Byte) :
    parseRM wide x b (modrm 3 g lo :: t) = .ok (g, some (.reg lo), t) := by
  simp [parseRM]

/-! ## The second source -/

/-- The `r/m` operand that the bytes of an operand of forms 1 to 3 give. -/
def RegMem.raw : RegMem → RawRM
  | .reg r => .reg (low3 r)
  | .mem m => .mem m

theorem parseRM_regMem_bytes {wide : Bool} {bound : Nat} {o : RegMem} (h : o.wellFormed wide bound = true) (g : BitVec 3)
    (t : List Byte) : parseRM wide o.xbit o.bbit (o.bytes g ++ t) = .ok (g, some o.raw, t) := by
  cases o with
  | reg r => exact parseRM_reg ..
  | mem m =>
    obtain ⟨rfl, hm⟩ := Bool.and_eq_true_iff.1 h
    exact parseRM_mem_bytes hm g t

theorem toRegMem_raw {wide : Bool} {bound : Nat} {o : RegMem} (h : o.wellFormed wide bound = true) (hb : bound ≤ 16) :
    o.raw.toRegMem o.bbit = o := by
  cases o with
  | reg r =>
    have hr : r.toNat < bound := by simpa [RegMem.wellFormed] using h
    exact congrArg RegMem.reg (num5_false_low3 r (by omega))
  | mem m => rfl

theorem MemOperand.ext_of_bound_8 {m : MemOperand} (h : m.wellFormed 8 = true) : m.xbit = false ∧ m.bbit = false := by
  have hindex {ix : Index} (hix : indexOk 8 ix = true) : ix.xbit = false := by
    cases ix with
    | none => rfl
    | some r => exact ext4_of_lt_8 r.1 (by simpa using (Bool.and_eq_true_iff.1 hix).1)
  cases m with
  | base b d =>
    simp only [MemOperand.wellFormed, Bool.and_eq_true, decide_eq_true_eq] at h
    exact ⟨rfl, ext4_of_lt_8 b h.1.1⟩
  | sib b ix d =>
    simp only [MemOperand.wellFormed, Bool.and_eq_true, decide_eq_true_eq] at h
    exact ⟨hindex h.1.2, ext4_of_lt_8 b h.1.1⟩
  | sibNoBase ix d => exact ⟨hindex h, rfl⟩
  | disp32 d => exact ⟨rfl, rfl⟩

/-- An operand with registers below 8 needs neither X nor B. -/
theorem RegMem.ext_of_bound_8 {wide : Bool} {o : RegMem} (h : o.wellFormed wide 8 = true) :
    o.xbit = false ∧ o.bbit = false := by
  cases o with
  | reg r => exact ⟨rfl, (ext_of_lt_8 r (by simpa [RegMem.wellFormed] using h)).1⟩
  | mem m => exact m.ext_of_bound_8 (Bool.and_eq_true_iff.1 h).2

/-- The `r/m` operand that the bytes of an operand of forms 4 to 6 give. -/
def RegMemBcst.raw : RegMemBcst → RawRM
  | .reg r => .reg (low3 r)
  | .mem m => .mem m
  | .bcst m => .mem m

theorem parseRM_bcst_bytes {vbound gbound : Nat} {o : RegMemBcst} (h : o.wellFormed vbound gbound = true) (g : BitVec 3)
    (t : List Byte) : parseRM true o.xbit o.bbit (o.bytes g ++ t) = .ok (g, some o.raw, t) := by
  cases o with
  | reg r => exact parseRM_reg ..
  | mem m => exact parseRM_mem_bytes h g t
  | bcst m => exact parseRM_mem_bytes h g t

theorem RegMemBcst.ext_of_bound_8 {o : RegMemBcst} (h : o.wellFormed 8 8 = true) : o.xbit = false ∧ o.bbit = false := by
  cases o with
  | reg r => exact (ext_of_lt_8 r (by simpa [RegMemBcst.wellFormed] using h)).symm
  | mem m => exact m.ext_of_bound_8 h
  | bcst m => exact m.ext_of_bound_8 h

/-! ## REX and VEX payloads (R83, R86, R87) -/

theorem isRex_rexByte : ∀ r x b, isRex (rexByte r x b) = true := by decide

theorem rexByte_bits : ∀ r x b, (rexByte r x b).getLsbD 2 = r ∧ (rexByte r x b).getLsbD 1 = x ∧
    (rexByte r x b).getLsbD 0 = b := by decide

theorem vexC5_c5Byte : ∀ (r : Bool) (v : BitVec 5) (l : Bool), vexC5 (c5Byte r v l) =
    { three := false, r := r, x := false, b := false, vvvv := v.extractLsb' 0 4, l := l, pp := 1 } := by decide

theorem vexC4_bytes : ∀ (r x b : Bool) (v : BitVec 5) (l : Bool), vexC4 (c4Byte1 r x b) (c4Byte2 v l) =
    { three := true, r := r, x := x, b := b, vvvv := v.extractLsb' 0 4, l := l, pp := 1 } := by decide

theorem c5Byte_recognised : ∀ (v : BitVec 5) (l : Bool), v.toNat < 8 → (c5Byte false v l).extractLsb' 6 2 = 3 := by decide

theorem c4Byte1_recognised : ∀ b, (c4Byte1 false false b).extractLsb' 6 2 = 3 := by decide

theorem vexMap_c4Byte1 : ∀ r x b, vexMap (c4Byte1 r x b) = .map0F := by decide

/-! ## EVEX payloads (R93 to R99) -/

theorem evexP0_bits : ∀ r x b r', (evexP0 r x b r').getLsbD 7 = !r ∧ (evexP0 r x b r').getLsbD 6 = !x ∧
    (evexP0 r x b r').getLsbD 5 = !b ∧ (evexP0 r x b r').getLsbD 4 = !r' := by decide

theorem evexP0_recognised : ∀ b r', (evexP0 false false b r').extractLsb' 6 2 = 3 := by decide

theorem evexP1_bits : ∀ v : BitVec 5, ~~~((evexP1 v).extractLsb' 3 4) = v.extractLsb' 0 4 ∧ (evexP1 v).getLsbD 7 = true ∧
    (evexP1 v).extractLsb' 0 2 = 1 ∧ (evexP1 v).getLsbD 6 = !v.getLsbD 3 := by decide

theorem evexP0_map : ∀ r x b r', (evexP0 r x b r').extractLsb' 0 2 = 1 := by decide

theorem evexReserved_encoded : ∀ (r x b r' : Bool) (v : BitVec 5), evexReserved (evexP0 r x b r') (evexP1 v) = false := by
  decide

theorem evexP2_bits (k : Mask) (ll : BitVec 2) (b : Bool) (v : BitVec 5) :
    (evexP2 k ll b v).getLsbD 7 = k.zbit ∧ (evexP2 k ll b v).extractLsb' 5 2 = ll ∧ (evexP2 k ll b v).getLsbD 4 = b ∧
      (evexP2 k ll b v).getLsbD 3 = !v.getLsbD 4 ∧ (evexP2 k ll b v).extractLsb' 0 3 = k.aaa := by
  simp only [evexP2]
  generalize k.zbit = z
  generalize k.aaa = a
  generalize v.getLsbD 4 = v4
  revert z ll b v4 a
  decide

theorem evexMask_evexP2 {k : Mask} (h : k.wellFormed = true) (ll : BitVec 2) (b : Bool) (v : BitVec 5) :
    evexMask (evexP2 k ll b v) = k := by
  obtain ⟨hz, -, -, -, ha⟩ := evexP2_bits k ll b v
  rw [evexMask, hz, ha]
  cases k with
  | none => rfl
  | merge k =>
    have hk : (Mask.merge k).aaa ≠ 0 := by simpa [Mask.wellFormed, Mask.aaa] using h
    rw [if_neg hk]
    rfl
  | zero k =>
    have hk : (Mask.zero k).aaa ≠ 0 := by simpa [Mask.wellFormed, Mask.aaa] using h
    rw [if_neg hk]
    rfl

theorem evexSrc1_encoded (k : Mask) (ll : BitVec 2) (b : Bool) (v : BitVec 5) :
    evexSrc1 (evexP1 v) (evexP2 k ll b v) = v := by
  obtain ⟨-, -, -, hv', -⟩ := evexP2_bits k ll b v
  rw [evexSrc1, hv', (evexP1_bits v).1, Bool.not_not, ofBool_append_extract4]

theorem evexSrc2_encoded (r r' : Bool) (k : Mask) (ll : BitVec 2) (v : BitVec 5) (o : RegMemBcst) :
    evexSrc2 (evexP0 r o.xbit o.bbit r') (evexP2 k ll o.isBcst v) o.raw = o := by
  obtain ⟨-, hx, hb, -⟩ := evexP0_bits r o.xbit o.bbit r'
  obtain ⟨-, -, hbcst, -, -⟩ := evexP2_bits k ll o.isBcst v
  cases o with
  | reg q => simp only [RegMemBcst.raw, evexSrc2, hx, hb, Bool.not_not]; exact congrArg _ (num5_low3 q)
  | mem m | bcst m => simp only [RegMemBcst.raw, evexSrc2, hbcst]; rfl

/-- An EVEX encoding of a well-formed instruction has no setting of R96. -/
theorem evexBad_encoded {k : Mask} (hk : k.wellFormed = true) (r r' : Bool) (ll : BitVec 2) (v : BitVec 5) (o : RegMemBcst) :
    evexBad (evexP0 r o.xbit o.bbit r') (evexP1 v) (evexP2 k ll o.isBcst v) (some o.raw) = false := by
  obtain ⟨hz, -, hb, -, ha⟩ := evexP2_bits k ll o.isBcst v
  obtain ⟨-, hw, hpp, -⟩ := evexP1_bits v
  have hmask : (k.zbit && k.aaa == 0#3) = false := by
    cases k with
    | none => rfl
    | merge k => rfl
    | zero k => simpa [Mask.wellFormed, Mask.zbit, Mask.aaa] using hk
  unfold evexBad
  rw [evexReserved_encoded, hpp, hw, hz, ha, hmask]
  cases o with
  | reg q => simp only [RegMemBcst.raw, hb]; rfl
  | mem m | bcst m => rfl

end Sys2Proof
end

section
/-!
SUPPORT. Decoding what the encoder writes: the scan of the prefix bytes before an instruction, the parser of each family on the bytes
after them, and the window of 15 bytes (30_encoding.md rules R80 to R100; 60_exceptions.md rule R180).
-/
namespace Sys2Proof

/-! ## The scan of prefix bytes (R83, R84) -/

/-- A byte that the scan reads on: a legacy prefix or, where there is REX, a REX byte. -/
def isPrefix (long : Bool) (b : Byte) : Bool := (legacyPrefix b).isSome || (long && isRex b)

/-- The scan after one more prefix byte. -/
def Scan.eat (sc : Scan) (b : Byte) : Scan :=
  match legacyPrefix b with
  | some p => sc.push p
  | none => sc.pushRex b

theorem legacyPrefix_of_isRex : ∀ b : Byte, isRex b = true → legacyPrefix b = none := by decide

theorem Scan.eat_legacy {b : Byte} {p : PrefixByte} (h : legacyPrefix b = some p) (sc : Scan) : sc.eat b = sc.push p := by
  simp only [Scan.eat, h]

theorem Scan.eat_rex {b : Byte} (h : isRex b = true) (sc : Scan) : sc.eat b = sc.pushRex b := by
  simp only [Scan.eat, legacyPrefix_of_isRex b h]

theorem scanPrefixes_cons {long : Bool} {b : Byte} (h : isPrefix long b = true) (sc : Scan) (bs : List Byte) :
    scanPrefixes long sc (b :: bs) = scanPrefixes long (sc.eat b) bs := by
  cases hl : legacyPrefix b with
  | some p => simp only [scanPrefixes, Scan.eat, hl]
  | none =>
    have hr : (long && isRex b) = true := by simpa [isPrefix, hl] using h
    simp only [scanPrefixes, Scan.eat, hl, hr, if_true]

theorem scanPrefixes_append {long : Bool} {pre : List Byte} (h : ∀ b ∈ pre, isPrefix long b = true) (sc : Scan)
    (bs : List Byte) : scanPrefixes long sc (pre ++ bs) = scanPrefixes long (pre.foldl Scan.eat sc) bs := by
  induction pre generalizing sc with
  | nil => rfl
  | cons b pre ih =>
    rw [List.cons_append, scanPrefixes_cons (h b (by simp)), ih fun c hc => h c (List.mem_cons_of_mem b hc), List.foldl_cons]

theorem scanPrefixes_stop {long : Bool} {b : Byte} (h : isPrefix long b = false) (sc : Scan) (bs : List Byte) :
    scanPrefixes long sc (b :: bs) = (sc, b :: bs) := by
  obtain ⟨hl, hr⟩ : legacyPrefix b = none ∧ (long && isRex b) = false := by simpa [isPrefix] using h
  simp only [scanPrefixes, hl, hr, Bool.false_eq_true, if_false]

/-- What holds after one byte of the prefixes and is kept by every other holds after all of them. -/
theorem foldl_eat_of_mem {P : Scan → Prop} (hkeep : ∀ (sc : Scan) c, P sc → P (sc.eat c)) {b : Byte}
    (hb : ∀ sc : Scan, P (sc.eat b)) {pre : List Byte} (hmem : b ∈ pre) (sc : Scan) : P (pre.foldl Scan.eat sc) := by
  obtain ⟨before, after, rfl⟩ := List.append_of_mem hmem
  rw [List.foldl_append, List.foldl_cons]
  exact List.foldlRecOn after Scan.eat (hb _) fun sc hsc c _ => hkeep sc c hsc

/-- The scan after the prefixes `p`, `ops` 66H bytes, `dead` ignored REX bytes and the REX byte `rex`. -/
def Prefixes.scan (p : Prefixes) (ops dead : Nat) (rex : Option Byte) : Scan :=
  { Scan.start with opsize := ops, addrsize := p.addr32.toNat, segs := p.seg.toList, deadRex := dead, rex := rex }

theorem legacyPrefix_segByte (s : SegName) : legacyPrefix (segByte s) = some (.seg s) := by
  cases s <;> rfl

theorem mem_prefixBytes {p : Prefixes} {b : Byte} (h : b ∈ p.bytes) : (legacyPrefix b).isSome = true := by
  simp only [Prefixes.bytes, List.mem_append] at h
  obtain (hs | ha) | hr := h
  · cases hp : p.seg with
    | none => simp [hp] at hs
    | some s =>
      obtain rfl : b = segByte s := by simpa [hp] using hs
      rw [legacyPrefix_segByte]
      rfl
  · split at ha
    · obtain rfl := List.mem_singleton.1 ha
      rfl
    · exact absurd ha List.not_mem_nil
  · obtain rfl := List.eq_of_mem_replicate hr
    rfl

theorem isPrefix_of_mem_prefixBytes {p : Prefixes} {b : Byte} (h : b ∈ p.bytes) (long : Bool) : isPrefix long b = true := by
  rw [isPrefix, mem_prefixBytes h, Bool.true_or]

theorem killRex_of_none {sc : Scan} (h : sc.rex = none) : sc.killRex = sc := by
  simp only [Scan.killRex, h]

theorem killRex_rex (sc : Scan) : sc.killRex.rex = none := by
  unfold Scan.killRex
  split
  · assumption
  · rfl

/-- A legacy prefix byte makes a REX byte before it an ignored one (R83). -/
theorem push_killRex (sc : Scan) (p : PrefixByte) : sc.killRex.push p = sc.push p := by
  cases p <;> simp [Scan.push, killRex_of_none (killRex_rex sc)]

theorem foldl_eat_replicate (n : Nat) {sc : Scan} (h : sc.rex = none) :
    (List.replicate n 0x66#8).foldl Scan.eat sc = { sc with opsize := sc.opsize + n } := by
  induction n generalizing sc with
  | zero => rfl
  | succ n ih =>
    have heat : sc.eat 0x66#8 = { sc with opsize := sc.opsize + 1 } := by
      rw [Scan.eat_legacy (p := .opsize) rfl, Scan.push, killRex_of_none h]
    rw [List.replicate_succ, List.foldl_cons, heat, ih (sc := { sc with opsize := sc.opsize + 1 }) h]
    simp only [Nat.add_assoc, Nat.add_comm 1 n]

theorem foldl_eat_prefixBytes (p : Prefixes) (ops dead : Nat) :
    p.bytes.foldl Scan.eat { Scan.start with opsize := ops, deadRex := dead } = p.scan (ops + p.redundant) dead none := by
  obtain ⟨seg, addr32, red⟩ := p
  have hseg (sc : Scan) (s : SegName) : sc.eat (segByte s) = sc.push (.seg s) := Scan.eat_legacy (legacyPrefix_segByte s) sc
  cases seg <;> cases addr32 <;> simp only [Prefixes.bytes, List.foldl_append, List.foldl_cons, List.foldl_nil, hseg] <;>
    exact foldl_eat_replicate red rfl

theorem foldl_eat_killRex {pre : List Byte} (hne : pre ≠ []) (h : ∀ b ∈ pre, (legacyPrefix b).isSome = true) (sc : Scan) :
    pre.foldl Scan.eat sc = pre.foldl Scan.eat sc.killRex := by
  cases pre with
  | nil => exact absurd rfl hne
  | cons b pre =>
    obtain ⟨p, hp⟩ := Option.isSome_iff_exists.1 (h b (by simp))
    rw [List.foldl_cons, List.foldl_cons, Scan.eat_legacy hp, Scan.eat_legacy hp, push_killRex]

/-- The prefixes of form 1 and its 66H, after `ops` more 66H bytes and `dead` REX bytes, of which the last may stand right before. -/
theorem foldl_eat_form1 {sc : Scan} {ops dead : Nat} (h : sc.killRex = { Scan.start with opsize := ops, deadRex := dead })
    (p : Prefixes) : (p.bytes ++ [0x66]).foldl Scan.eat sc = p.scan (ops + p.redundant + 1) dead none := by
  have hlegacy : ∀ b ∈ p.bytes ++ [0x66], (legacyPrefix b).isSome = true := by
    intro b hb
    obtain hb | hb := List.mem_append.1 hb
    · exact mem_prefixBytes hb
    · obtain rfl := List.mem_singleton.1 hb
      rfl
  rw [foldl_eat_killRex (by simp) hlegacy, h, List.foldl_append, foldl_eat_prefixBytes]
  rfl

theorem toPrefixes_scan (p : Prefixes) (ops dead : Nat) (rex : Option Byte) :
    (p.scan ops dead rex).toPrefixes = .ok { p with redundant := ops - 1 + dead } := by
  obtain ⟨seg, addr32, red⟩ := p
  cases seg <;> cases addr32 <;> rfl

theorem narrow_scan {m : Mode} {p : Prefixes} (h : p.addrOk m = true) (ops dead : Nat) (rex : Option Byte) :
    (p.scan ops dead rex).narrow m = false := by
  by_cases hm : m = .long64
  · simp [Scan.narrow, hm]
  · have ha : p.addr32 = false := by simpa [Prefixes.addrOk, hm] using h
    simp [Scan.narrow, Prefixes.scan, ha]

/-! ## The bytes before and after the scan -/

/-- The bytes of an encoding before its opcode, C5H, C4H or 62H byte. -/
def Instr.lead : Instr → List Byte
  | .unpckhpd p _ _ => p.bytes ++ [0x66]
  | .unpckhpdRex p d s => p.bytes ++ [0x66] ++ [rexByte (d.getLsbD 3) s.xbit s.bbit]
  | i => i.pfx.bytes

/-- C5H and what follows it in an encoding. -/
def c5Body (l : Bool) (dest src1 : BitVec 5) (s : RegMem) : List Byte :=
  0xC5 :: c5Byte (dest.getLsbD 3) src1 l :: 0x15 :: s.bytes (low3 dest)

/-- C4H and what follows it in an encoding. -/
def c4Body (l : Bool) (dest src1 : BitVec 5) (s : RegMem) : List Byte :=
  0xC4 :: c4Byte1 (dest.getLsbD 3) s.xbit s.bbit :: c4Byte2 src1 l :: 0x15 :: s.bytes (low3 dest)

/-- 62H and what follows it in an encoding. -/
def evexBody (ll : BitVec 2) (dest : BitVec 5) (k : Mask) (src1 : BitVec 5) (s : RegMemBcst) : List Byte :=
  0x62 :: evexP0 (dest.getLsbD 3) s.xbit s.bbit (dest.getLsbD 4) :: evexP1 src1 :: evexP2 k ll s.isBcst src1 :: 0x15 ::
    s.bytes (low3 dest)

/-- The bytes of an encoding from its opcode, C5H, C4H or 62H byte on. -/
def Instr.body : Instr → List Byte
  | .unpckhpd _ d s | .unpckhpdRex _ d s => 0x0F :: 0x15 :: s.bytes (low3 d)
  | .vunpckhpd128C5 _ d s1 s => c5Body false d s1 s
  | .vunpckhpd128C4 _ d s1 s => c4Body false d s1 s
  | .vunpckhpd256C5 _ d s1 s => c5Body true d s1 s
  | .vunpckhpd256C4 _ d s1 s => c4Body true d s1 s
  | .vunpckhpdEvex128 _ d k s1 s => evexBody 0 d k s1 s
  | .vunpckhpdEvex256 _ d k s1 s => evexBody 1 d k s1 s
  | .vunpckhpdEvex512 _ d k s1 s => evexBody 2 d k s1 s

theorem encode_eq_lead_body (i : Instr) : encode i = i.lead ++ i.body := by
  cases i <;>
    simp [encode, encodeC5, encodeC4, encodeEvex, Instr.lead, Instr.body, Instr.pfx, c5Body, c4Body, evexBody]

theorem encode_length : ∀ i : Instr, (encode i).length = i.length
  | .unpckhpd .. => Laws.LengthAgrees.unpckhpd ..
  | .unpckhpdRex .. => Laws.LengthAgrees.unpckhpdRex ..
  | .vunpckhpd128C5 .. => Laws.LengthAgrees.vunpckhpd128C5 ..
  | .vunpckhpd128C4 .. => Laws.LengthAgrees.vunpckhpd128C4 ..
  | .vunpckhpd256C5 .. => Laws.LengthAgrees.vunpckhpd256C5 ..
  | .vunpckhpd256C4 .. => Laws.LengthAgrees.vunpckhpd256C4 ..
  | .vunpckhpdEvex128 .. => Laws.LengthAgrees.vunpckhpdEvex128 ..
  | .vunpckhpdEvex256 .. => Laws.LengthAgrees.vunpckhpdEvex256 ..
  | .vunpckhpdEvex512 .. => Laws.LengthAgrees.vunpckhpdEvex512 ..

/-- The scan stops at the byte after the lead. -/
theorem scanPrefixes_body (long : Bool) (sc : Scan) (i : Instr) (t : List Byte) :
    scanPrefixes long sc (i.body ++ t) = (sc, i.body ++ t) := by
  cases i <;> exact scanPrefixes_stop (by cases long <;> rfl) sc _

/-- A REX byte is written in `Long64` only. -/
theorem isPrefix_of_mem_lead {m : Mode} {i : Instr} (hf : i.fieldsOk m = true) {b : Byte} (h : b ∈ i.lead) :
    isPrefix (decide (m = .long64)) b = true := by
  cases i with
  | unpckhpd p d s =>
    obtain h | h := List.mem_append.1 h
    · exact isPrefix_of_mem_prefixBytes h _
    · obtain rfl := List.mem_singleton.1 h
      rfl
  | unpckhpdRex p d s =>
    simp only [Instr.fieldsOk, Bool.and_eq_true, beq_iff_eq] at hf
    obtain ⟨⟨⟨rfl, -⟩, -⟩, -⟩ := hf
    obtain (h | h) | h := by simpa only [Instr.lead, List.mem_append] using h
    · exact isPrefix_of_mem_prefixBytes h _
    · obtain rfl := List.mem_singleton.1 h
      rfl
    · obtain rfl := List.mem_singleton.1 h
      simp [isPrefix, isRex_rexByte]
  | vunpckhpd128C5 | vunpckhpd128C4 | vunpckhpd256C5 | vunpckhpd256C4 | vunpckhpdEvex128 | vunpckhpdEvex256
  | vunpckhpdEvex512 => exact isPrefix_of_mem_prefixBytes h _

theorem parseWindow_prefixes {m : Mode} {pre : List Byte} (h : ∀ b ∈ pre, isPrefix (decide (m = .long64)) b = true) (i : Instr)
    (t : List Byte) : parseWindow m (pre ++ (i.body ++ t)) = parseHead m (pre.foldl Scan.eat Scan.start) (i.body ++ t) := by
  simp only [parseWindow, scanPrefixes_append h, scanPrefixes_body]

/-! ## The parsers on encoded bytes -/

/-- The prefixes before a VEX or EVEX byte are clean and give `p`. -/
structure Scan.BeforeVex (sc : Scan) (m : Mode) (p : Prefixes) : Prop where
  bad : sc.badBeforeVex = false
  narrow : sc.narrow m = false
  prefixes : sc.toPrefixes = .ok p

/-- The prefixes before `0F 15` are those of form 1 with the REX byte `rex`, and give `p`. -/
structure Scan.BeforeForm1 (sc : Scan) (m : Mode) (p : Prefixes) (rex : Option Byte) : Prop where
  lock : sc.lock = false
  rep : sc.rep = false
  opsize : sc.opsize ≠ 0
  rexByte : sc.rex = rex
  narrow : sc.narrow m = false
  prefixes : sc.toPrefixes = .ok p

/-- The scan `sc` is one that gives the prefixes of the instruction. -/
def Scan.Precedes (sc : Scan) (m : Mode) : Instr → Prop
  | .unpckhpd p _ _ => sc.BeforeForm1 m p none
  | .unpckhpdRex p d s => sc.BeforeForm1 m p (some (Sys2Proof.rexByte (d.getLsbD 3) s.xbit s.bbit))
  | i => sc.BeforeVex m i.pfx

theorem wide_of_not_narrow {m : Mode} {sc : Scan} (h : sc.narrow m = false) : sc.wide m = m.wide := by
  simp [Scan.wide, Mode.wide, h]

theorem noVex_of_wide {m : Mode} (h : m.wide = true) : m.noVex = false := by
  cases m with
  | long64 | prot32 => rfl
  | real | v86 | prot16 => exact absurd h (by decide)

theorem finishForm_clean {m : Mode} {sc : Scan} {p : Prefixes} (hn : sc.narrow m = false) (hp : sc.toPrefixes = .ok p)
    (g : GateClass) (o : RawRM) (rest : List Byte) (build : Prefixes → RawRM → Instr) :
    finishForm m sc g false none (some o) rest build = .ok (build p o, rest) := by
  simp only [finishForm, hn, hp, Bool.false_eq_true, if_false]

theorem parseLegacy_bytes {m : Mode} {sc : Scan} {p : Prefixes} {rex : Option Byte} (hsc : sc.BeforeForm1 m p rex)
    {o : RegMem} {bound : Nat} (ho : o.wellFormed m.wide bound = true) (hx : (rex.getD 0).getLsbD 1 = o.xbit)
    (hb : (rex.getD 0).getLsbD 0 = o.bbit) (g : BitVec 3) (t : List Byte) :
    parseLegacy m sc (o.bytes g ++ t) = .ok (legacyInstr rex p g o.raw, t) := by
  obtain ⟨hlock, hrep, hops, rfl, hn, hp⟩ := hsc
  have h66 : (!sc.rep && sc.opsize == 0) = false := by simp [hops]
  have hbad : (sc.rep || sc.lock) = false := by simp [hrep, hlock]
  simp only [parseLegacy, wide_of_not_narrow hn, hx, hb, parseRM_regMem_bytes ho, h66, hbad, Bool.false_eq_true, if_false]
  exact finishForm_clean hn hp ..

/-- The row of forms 2 and 3 with these fields. -/
def vexRow (three l : Bool) (p : Prefixes) (dest src1 : BitVec 5) (s : RegMem) : Instr :=
  match three, l with
  | false, false => .vunpckhpd128C5 p dest src1 s
  | true, false => .vunpckhpd128C4 p dest src1 s
  | false, true => .vunpckhpd256C5 p dest src1 s
  | true, true => .vunpckhpd256C4 p dest src1 s

theorem vexInstr_eq_vexRow (v : Vex) (p : Prefixes) (g : BitVec 3) (rm : RawRM) :
    vexInstr v p g rm = vexRow v.three v.l p (num5 false v.r g) (v.vvvv.setWidth 5) (rm.toRegMem v.b) := by
  obtain ⟨three, r, x, b, vvvv, l, pp⟩ := v
  cases three <;> cases l <;> rfl

/-- The fields that a VEX prefix gives for these operands. -/
def vexFields (three l : Bool) (dest src1 : BitVec 5) (s : RegMem) : Vex :=
  { three := three, r := dest.getLsbD 3, x := s.xbit, b := s.bbit, vvvv := src1.extractLsb' 0 4, l := l, pp := 1 }

/-- A register number in reach is below 16, and below 8 outside `Long64`. -/
theorem lt_16_of_bound {m : Mode} {n : Nat} (h : n < m.bound 16) : n < 16 := by
  unfold Mode.bound at h
  split at h <;> omega

/-- What a well-formed term of forms 2 and 3 says of its fields. -/
theorem vexWellFormed_iff {m : Mode} {bound : Nat} {p : Prefixes} {dest src1 : BitVec 5} {s : RegMem} :
    vexWellFormed m bound p dest src1 s = true ↔ m.wide = true ∧ p.vexOk m = true ∧ dest.toNat < m.bound 16 ∧
      src1.toNat < m.bound 16 ∧ s.wellFormed true (m.bound bound) = true := by
  simp only [vexWellFormed, Bool.and_eq_true, decide_eq_true_eq, and_assoc]

/-- Outside `Long64` the fields that `forMode` drops are those of registers 8 and up. -/
theorem forMode_vexFields {m : Mode} {bound : Nat} {p : Prefixes} {dest src1 : BitVec 5} {s : RegMem}
    (h : vexWellFormed m bound p dest src1 s = true) (three l : Bool) :
    (vexFields three l dest src1 s).forMode m = vexFields three l dest src1 s := by
  obtain ⟨-, -, -, hs1, hs⟩ := vexWellFormed_iff.1 h
  by_cases hm : m = .long64
  · exact if_pos hm
  · simp only [Mode.bound, if_neg hm] at hs1 hs
    simp only [Vex.forMode, if_neg hm, vexFields, extract4_and_7 src1 hs1, (RegMem.ext_of_bound_8 hs).2]

/-- Outside `Long64` a term of forms 2 and 3 needs neither R nor X, and its first source is below 8. -/
theorem vexWellFormed_ext {m : Mode} {bound : Nat} {p : Prefixes} {dest src1 : BitVec 5} {s : RegMem}
    (h : vexWellFormed m bound p dest src1 s = true) (hm : m ≠ .long64) :
    dest.getLsbD 3 = false ∧ s.xbit = false ∧ src1.toNat < 8 := by
  obtain ⟨-, -, hd, hs1, hs⟩ := vexWellFormed_iff.1 h
  simp only [Mode.bound, if_neg hm] at hd hs1 hs
  exact ⟨(ext_of_lt_8 dest hd).1, (RegMem.ext_of_bound_8 hs).1, hs1⟩

theorem vexRecognised_of {m : Mode} {v : Byte} (h : m ≠ .long64 → v.extractLsb' 6 2 = 3) : vexRecognised m v = true := by
  by_cases hm : m = .long64
  · simp [vexRecognised, hm]
  · simp only [vexRecognised, h hm]
    exact Bool.or_true _

theorem parseVex_bytes {m : Mode} {sc : Scan} {bound : Nat} {p : Prefixes} {dest src1 : BitVec 5} {s : RegMem}
    (hsc : sc.BeforeVex m p) (h : vexWellFormed m bound p dest src1 s = true) (hb : bound ≤ 16) (three l : Bool)
    (t : List Byte) :
    parseVex m sc (vexFields three l dest src1 s) (0x15 :: (s.bytes (low3 dest) ++ t)) =
      .ok (vexRow three l p dest src1 s, t) := by
  obtain ⟨hbad, hn, hp⟩ := hsc
  obtain ⟨hw, -, hd, hs1, hs⟩ := vexWellFormed_iff.1 h
  have hbound : m.bound bound ≤ 16 := by unfold Mode.bound; split <;> omega
  have hrow : vexInstr (vexFields three l dest src1 s) p (low3 dest) s.raw = vexRow three l p dest src1 s := by
    simp only [vexInstr_eq_vexRow, vexFields, num5_false_low3 dest (lt_16_of_bound hd),
      setWidth_extract4 src1 (lt_16_of_bound hs1), toRegMem_raw hs hbound]
  have hop : ¬ ((0x15 : Byte) ≠ 0x15 ∨ (vexFields three l dest src1 s).pp = 0) := by simp [vexFields]
  have hpp : ((vexFields three l dest src1 s).pp != 1#2) = false := rfl
  have hrm : parseRM true (vexFields three l dest src1 s).x (vexFields three l dest src1 s).b (s.bytes (low3 dest) ++ t) =
      .ok (low3 dest, some s.raw, t) := parseRM_regMem_bytes hs ..
  simp only [parseVex, if_neg hop, wide_of_not_narrow hn, hw, hrm, hpp, noVex_of_wide hw, hbad, Bool.or_self]
  rw [finishForm_clean hn hp, hrow]

theorem parseHead_c5Body {m : Mode} {sc : Scan} {p : Prefixes} {dest src1 : BitVec 5} {s : RegMem}
    (hsc : sc.BeforeVex m p) (h : vexWellFormed m 8 p dest src1 s = true) (l : Bool) (t : List Byte) :
    parseHead m sc (c5Body l dest src1 s ++ t) = .ok (vexRow false l p dest src1 s, t) := by
  have hrec : vexRecognised m (c5Byte (dest.getLsbD 3) src1 l) = true := vexRecognised_of fun hm => by
    obtain ⟨hr, -, hs1⟩ := vexWellFormed_ext h hm
    rw [hr]
    exact c5Byte_recognised src1 l hs1
  have hext : s.xbit = false ∧ s.bbit = false := by
    obtain ⟨-, -, -, -, hs⟩ := vexWellFormed_iff.1 h
    have h8 : m.bound 8 = 8 := ite_self 8
    exact RegMem.ext_of_bound_8 (h8 ▸ hs)
  have hv : vexC5 (c5Byte (dest.getLsbD 3) src1 l) = vexFields false l dest src1 s := by
    rw [vexC5_c5Byte, vexFields, hext.1, hext.2]
  calc parseHead m sc (c5Body l dest src1 s ++ t)
      = parseC5 m sc (c5Byte (dest.getLsbD 3) src1 l :: 0x15 :: (s.bytes (low3 dest) ++ t)) := rfl
    _ = parseVex m sc (vexFields false l dest src1 s) (0x15 :: (s.bytes (low3 dest) ++ t)) := by
        rw [parseC5, if_pos hrec, hv, forMode_vexFields h]
    _ = .ok (vexRow false l p dest src1 s, t) := parseVex_bytes hsc h (by decide) false l t

theorem parseHead_c4Body {m : Mode} {sc : Scan} {p : Prefixes} {dest src1 : BitVec 5} {s : RegMem}
    (hsc : sc.BeforeVex m p) (h : vexWellFormed m 16 p dest src1 s = true) (l : Bool) (t : List Byte) :
    parseHead m sc (c4Body l dest src1 s ++ t) = .ok (vexRow true l p dest src1 s, t) := by
  have hrec : vexRecognised m (c4Byte1 (dest.getLsbD 3) s.xbit s.bbit) = true := vexRecognised_of fun hm => by
    obtain ⟨hr, hx, -⟩ := vexWellFormed_ext h hm
    rw [hr, hx]
    exact c4Byte1_recognised _
  have hv : vexC4 (c4Byte1 (dest.getLsbD 3) s.xbit s.bbit) (c4Byte2 src1 l) = vexFields true l dest src1 s :=
    vexC4_bytes ..
  calc parseHead m sc (c4Body l dest src1 s ++ t)
      = parseC4 m sc (c4Byte1 (dest.getLsbD 3) s.xbit s.bbit :: c4Byte2 src1 l :: 0x15 :: (s.bytes (low3 dest) ++ t)) := rfl
    _ = parseVex m sc (vexFields true l dest src1 s) (0x15 :: (s.bytes (low3 dest) ++ t)) := by
        simp only [parseC4, hrec, if_true, vexMap_c4Byte1, hv, forMode_vexFields h]
    _ = .ok (vexRow true l p dest src1 s, t) := parseVex_bytes hsc h (by decide) true l t

/-- The row of forms 4 to 6 with these fields. -/
def evexRow (vl : VecLen) (p : Prefixes) (dest : BitVec 5) (k : Mask) (src1 : BitVec 5) (s : RegMemBcst) : Instr :=
  match vl with
  | .v128 => .vunpckhpdEvex128 p dest k src1 s
  | .v256 => .vunpckhpdEvex256 p dest k src1 s
  | .v512 => .vunpckhpdEvex512 p dest k src1 s

theorem evexInstr_eq_evexRow (vl : VecLen) (p0 p1 p2 : Byte) (p : Prefixes) (g : BitVec 3) (rm : RawRM) :
    evexInstr vl p0 p1 p2 p g rm = evexRow vl p (num5 (!p0.getLsbD 4) (!p0.getLsbD 7) g) (evexMask p2) (evexSrc1 p1 p2)
      (evexSrc2 p0 p2 rm) := by
  cases vl <;> rfl

/-- L'L of a vector length (R97). -/
def VecLen.ll : VecLen → BitVec 2
  | .v128 => 0
  | .v256 => 1
  | .v512 => 2

theorem evexLen_evexP2 (vl : VecLen) (k : Mask) (b : Bool) (v : BitVec 5) : evexLen (evexP2 k vl.ll b v) = some vl := by
  unfold evexLen
  rw [(evexP2_bits k vl.ll b v).2.1]
  cases vl <;> rfl

theorem evexWellFormed_iff {m : Mode} {p : Prefixes} {dest src1 : BitVec 5} {k : Mask} {s : RegMemBcst} :
    evexWellFormed m p dest k src1 s = true ↔ m.wide = true ∧ p.vexOk m = true ∧ dest.toNat < m.bound 32 ∧
      k.wellFormed = true ∧ src1.toNat < m.bound 32 ∧ s.wellFormed (m.bound 32) (m.bound 16) = true := by
  simp only [evexWellFormed, Bool.and_eq_true, decide_eq_true_eq, and_assoc]

/-- Outside `Long64` a term of forms 4 to 6 needs no extension bit. -/
theorem evexWellFormed_ext {m : Mode} {p : Prefixes} {dest src1 : BitVec 5} {k : Mask} {s : RegMemBcst}
    (h : evexWellFormed m p dest k src1 s = true) (hm : m ≠ .long64) :
    (dest.getLsbD 3 = false ∧ dest.getLsbD 4 = false) ∧ (src1.getLsbD 3 = false ∧ src1.getLsbD 4 = false) ∧
      s.xbit = false ∧ s.bbit = false := by
  obtain ⟨-, -, hd, -, hs1, hs⟩ := evexWellFormed_iff.1 h
  simp only [Mode.bound, if_neg hm] at hd hs1 hs
  exact ⟨ext_of_lt_8 dest hd, ext_of_lt_8 src1 hs1, RegMemBcst.ext_of_bound_8 hs⟩

theorem evexBitsOk_encoded {m : Mode} {p : Prefixes} {dest src1 : BitVec 5} {k : Mask} {s : RegMemBcst}
    (h : evexWellFormed m p dest k src1 s = true) (ll : BitVec 2) :
    evexBitsOk m (evexP0 (dest.getLsbD 3) s.xbit s.bbit (dest.getLsbD 4)) (evexP1 src1) (evexP2 k ll s.isBcst src1) = true := by
  by_cases hm : m = .long64
  · simp [evexBitsOk, hm]
  · obtain ⟨⟨-, hr'⟩, ⟨hv3, hv'⟩, -, hb⟩ := evexWellFormed_ext h hm
    obtain ⟨-, -, h5, h4⟩ := evexP0_bits (dest.getLsbD 3) s.xbit s.bbit (dest.getLsbD 4)
    obtain ⟨-, -, -, h3, -⟩ := evexP2_bits k ll s.isBcst src1
    obtain ⟨-, -, -, h6⟩ := evexP1_bits src1
    rw [evexBitsOk, h5, h4, h3, h6, hr', hv3, hv', hb]
    exact Bool.or_true _

theorem evexInstr_encoded {m : Mode} {p : Prefixes} {dest src1 : BitVec 5} {k : Mask} {s : RegMemBcst}
    (h : evexWellFormed m p dest k src1 s = true) (vl : VecLen) :
    evexInstr vl (evexP0 (dest.getLsbD 3) s.xbit s.bbit (dest.getLsbD 4)) (evexP1 src1) (evexP2 k vl.ll s.isBcst src1) p
      (low3 dest) s.raw = evexRow vl p dest k src1 s := by
  obtain ⟨-, -, -, hk, -, -⟩ := evexWellFormed_iff.1 h
  obtain ⟨h7, -, -, h4⟩ := evexP0_bits (dest.getLsbD 3) s.xbit s.bbit (dest.getLsbD 4)
  rw [evexInstr_eq_evexRow, h7, h4, Bool.not_not, Bool.not_not, num5_low3, evexMask_evexP2 hk, evexSrc1_encoded,
    evexSrc2_encoded]

theorem parseHead_evexBody {m : Mode} {sc : Scan} {p : Prefixes} {dest src1 : BitVec 5} {k : Mask} {s : RegMemBcst}
    (hsc : sc.BeforeVex m p) (h : evexWellFormed m p dest k src1 s = true) (vl : VecLen) (t : List Byte) :
    parseHead m sc (evexBody vl.ll dest k src1 s ++ t) = .ok (evexRow vl p dest k src1 s, t) := by
  obtain ⟨hbad, hn, hp⟩ := hsc
  obtain ⟨hw, -, -, hk, -, hs⟩ := evexWellFormed_iff.1 h
  have hinstr := evexInstr_encoded h vl
  have hbits := evexBitsOk_encoded h vl.ll
  have hnot := evexBad_encoded hk (dest.getLsbD 3) (dest.getLsbD 4) vl.ll src1 s
  have hlen := evexLen_evexP2 vl k s.isBcst src1
  obtain ⟨-, hx, hb, -⟩ := evexP0_bits (dest.getLsbD 3) s.xbit s.bbit (dest.getLsbD 4)
  have hrec : vexRecognised m (evexP0 (dest.getLsbD 3) s.xbit s.bbit (dest.getLsbD 4)) = true := vexRecognised_of fun hm => by
    obtain ⟨⟨hr, -⟩, -, hx, -⟩ := evexWellFormed_ext h hm
    rw [hr, hx]
    exact evexP0_recognised ..
  have hother : evexOther (evexP0 (dest.getLsbD 3) s.xbit s.bbit (dest.getLsbD 4)) (evexP1 src1) 0x15 = false := by
    obtain ⟨-, -, hpp, -⟩ := evexP1_bits src1
    rw [evexOther, evexP0_map, hpp]
    exact Bool.and_false _
  generalize hp0 : evexP0 (dest.getLsbD 3) s.xbit s.bbit (dest.getLsbD 4) = p0 at *
  generalize hp1 : evexP1 src1 = p1 at *
  generalize hp2 : evexP2 k vl.ll s.isBcst src1 = p2 at *
  calc parseHead m sc (evexBody vl.ll dest k src1 s ++ t)
      = parseEvex m sc (p0 :: p1 :: p2 :: 0x15 :: (s.bytes (low3 dest) ++ t)) := by rw [← hp0, ← hp1, ← hp2]; rfl
    _ = parseEvexOperands m sc p0 p1 p2 (s.bytes (low3 dest) ++ t) := by
        simp only [parseEvex, hrec, if_true, hother, Bool.false_eq_true, if_false]
    _ = .ok (evexRow vl p dest k src1 s, t) := by
        simp only [parseEvexOperands, wide_of_not_narrow hn, hw, hx, hb, Bool.not_not, parseRM_bcst_bytes hs, hlen, hnot,
          noVex_of_wide hw, hbad, hbits, Bool.or_self, if_true]
        rw [finishForm_clean hn hp, hinstr]

/-- R82, R83: `0F 15` and what follows it in an encoding of form 1. -/
theorem parseHead_form1Body {m : Mode} {sc : Scan} {p : Prefixes} {rex : Option Byte} (hsc : sc.BeforeForm1 m p rex)
    {o : RegMem} {bound : Nat} (ho : o.wellFormed m.wide bound = true) (hx : (rex.getD 0).getLsbD 1 = o.xbit)
    (hb : (rex.getD 0).getLsbD 0 = o.bbit) (g : BitVec 3) (t : List Byte) :
    parseHead m sc (0x0F :: 0x15 :: o.bytes g ++ t) = .ok (legacyInstr rex p g o.raw, t) :=
  parseLegacy_bytes hsc ho hx hb g t

/-- The bytes of an instruction after its prefixes give it back. -/
theorem parseHead_body {m : Mode} {sc : Scan} {i : Instr} (hf : i.fieldsOk m = true) (hsc : sc.Precedes m i) (t : List Byte) :
    parseHead m sc (i.body ++ t) = .ok (i, t) := by
  cases i with
  | unpckhpd p d s =>
    simp only [Instr.fieldsOk, Bool.and_eq_true, decide_eq_true_eq] at hf
    obtain ⟨⟨-, hd⟩, hs⟩ := hf
    obtain ⟨hx, hb⟩ := RegMem.ext_of_bound_8 hs
    have hraw := toRegMem_raw hs (by decide)
    rw [hb] at hraw
    refine (parseHead_form1Body hsc hs hx.symm hb.symm (low3 d) t).trans ?_
    rw [legacyInstr, num5_false_false_low3 hd, hraw]
  | unpckhpdRex p d s =>
    simp only [Instr.fieldsOk, Bool.and_eq_true, decide_eq_true_eq, beq_iff_eq] at hf
    obtain ⟨⟨⟨rfl, hd⟩, -⟩, hs⟩ := hf
    obtain ⟨hr, hx, hb⟩ := rexByte_bits (d.getLsbD 3) s.xbit s.bbit
    refine (parseHead_form1Body hsc hs hx hb (low3 d) t).trans ?_
    rw [legacyInstr, hr, hb, num5_false_low3 d hd, toRegMem_raw hs (by decide)]
  | vunpckhpd128C5 p d s1 s => exact parseHead_c5Body hsc hf false t
  | vunpckhpd128C4 p d s1 s => exact parseHead_c4Body hsc hf false t
  | vunpckhpd256C5 p d s1 s => exact parseHead_c5Body hsc hf true t
  | vunpckhpd256C4 p d s1 s => exact parseHead_c4Body hsc hf true t
  | vunpckhpdEvex128 p d k s1 s => exact parseHead_evexBody hsc hf .v128 t
  | vunpckhpdEvex256 p d k s1 s => exact parseHead_evexBody hsc hf .v256 t
  | vunpckhpdEvex512 p d k s1 s => exact parseHead_evexBody hsc hf .v512 t

end Sys2Proof
end

section
/-!
SUPPORT. The window of 15 bytes (60_exceptions.md rule R180), the prefixes of an encoding, and what a byte among them changes
(30_encoding.md rules R84, R90, R100).
-/
namespace Sys2Proof

/-! ## The window -/

theorem decode_error_of_window {m : Mode} (hm : m ≠ .prot16) {bs : List Byte} {e : Reject}
    (h : parseWindow m (bs.take Config.maxInstrBytes) = .error e) (he : e ≠ .truncated) : decode m bs = .error e := by
  simp only [decode, if_neg hm, h]

/-- At most 15 bytes that are an instruction, whatever follows them, are one for the decoder. -/
theorem decode_ok_of_window {m : Mode} (hm : m ≠ .prot16) {bs : List Byte} (hlen : bs.length ≤ Config.maxInstrBytes) {i : Instr}
    (h : ∀ t, parseWindow m (bs ++ t) = .ok (i, t)) (tail : List Byte) : decode m (bs ++ tail) = .ok (i, tail) := by
  simp only [decode, if_neg hm, List.take_append, List.take_of_length_le hlen, h, List.drop_append,
    List.drop_eq_nil_of_le hlen, List.nil_append, List.take_append_drop]

/-- At most 15 bytes that are rejected, whatever follows them, are rejected by the decoder. -/
theorem decode_error_append {m : Mode} (hm : m ≠ .prot16) {bs : List Byte} (hlen : bs.length ≤ Config.maxInstrBytes) {e : Reject}
    (h : ∀ t, parseWindow m (bs ++ t) = .error e) (he : e ≠ .truncated) (tail : List Byte) :
    decode m (bs ++ tail) = .error e :=
  decode_error_of_window hm (by rw [List.take_append, List.take_of_length_le hlen, h]) he

/-! ## The prefixes of an encoding -/

theorem ne_prot16_of_fieldsOk {m : Mode} {i : Instr} (h : i.fieldsOk m = true) : m ≠ .prot16 := by
  rintro rfl
  cases i <;> cases h

/-- 67H only in `Long64`, in every row (R84). -/
theorem pfx_addrOk {m : Mode} {i : Instr} (hf : i.fieldsOk m = true) : i.pfx.addrOk m = true := by
  cases i with
  | unpckhpd | unpckhpdRex =>
    simp only [Instr.fieldsOk, Bool.and_eq_true] at hf
    simp only [Instr.pfx, hf]
  | vunpckhpd128C5 | vunpckhpd128C4 | vunpckhpd256C5 | vunpckhpd256C4 =>
    exact (Bool.and_eq_true_iff.1 (vexWellFormed_iff.1 hf).2.1).1
  | vunpckhpdEvex128 | vunpckhpdEvex256 | vunpckhpdEvex512 =>
    exact (Bool.and_eq_true_iff.1 (evexWellFormed_iff.1 hf).2.1).1

/-- The prefixes of form 1, after `ops` more 66H bytes and `dead` ignored REX bytes. -/
theorem beforeForm1_scan {m : Mode} {p : Prefixes} (h : p.addrOk m = true) (ops dead : Nat) (rex : Option Byte) :
    (p.scan (ops + p.redundant + 1) dead rex).BeforeForm1 m { p with redundant := p.redundant + (ops + dead) } rex :=
  ⟨rfl, rfl, Nat.succ_ne_zero _, rfl, narrow_scan h .., by
    rw [toPrefixes_scan, Nat.add_sub_cancel, Nat.add_comm ops, Nat.add_assoc]⟩

section
variable {m : Mode} {sc : Scan} {ops dead : Nat} (hsc : sc.killRex = { Scan.start with opsize := ops, deadRex := dead })
  {p : Prefixes} (hp : p.addrOk m = true) (d : BitVec 5) (s : RegMem)
include hsc hp

/-- After `ops` 66H bytes and `dead` REX bytes the lead of form 1 counts that many more redundant bytes (R83, R84). -/
theorem precedes_unpckhpd : ((Instr.unpckhpd p d s).lead.foldl Scan.eat sc).Precedes m
    (.unpckhpd { p with redundant := p.redundant + (ops + dead) } d s) := by
  rw [Instr.lead, foldl_eat_form1 hsc]
  exact beforeForm1_scan hp ops dead none

theorem precedes_unpckhpdRex : ((Instr.unpckhpdRex p d s).lead.foldl Scan.eat sc).Precedes m
    (.unpckhpdRex { p with redundant := p.redundant + (ops + dead) } d s) := by
  rw [Instr.lead, List.foldl_append, foldl_eat_form1 hsc, List.foldl_cons, List.foldl_nil, Scan.eat_rex (isRex_rexByte ..)]
  exact beforeForm1_scan hp ops dead (some _)

end

theorem beforeVex_prefixBytes {m : Mode} {p : Prefixes} (h : p.vexOk m = true) :
    (p.bytes.foldl Scan.eat Scan.start).BeforeVex m p := by
  obtain ⟨haddr, hred⟩ : p.addrOk m = true ∧ p.redundant = 0 := by simpa [Prefixes.vexOk] using h
  have hscan : p.bytes.foldl Scan.eat Scan.start = p.scan (0 + p.redundant) 0 none := foldl_eat_prefixBytes p 0 0
  have hp : (p.scan 0 0 none).toPrefixes = .ok p := by
    rw [toPrefixes_scan]
    exact congrArg (fun n => Except.ok { p with redundant := n }) hred.symm
  rw [hscan, hred]
  exact ⟨rfl, narrow_scan haddr .., hp⟩

/-- The scan of the lead of an encoding gives its prefixes. -/
theorem precedes_lead {m : Mode} {i : Instr} (hf : i.fieldsOk m = true) : (i.lead.foldl Scan.eat Scan.start).Precedes m i := by
  cases i with
  | unpckhpd p d s => exact precedes_unpckhpd (ops := 0) (dead := 0) rfl (pfx_addrOk hf) d s
  | unpckhpdRex p d s => exact precedes_unpckhpdRex (ops := 0) (dead := 0) rfl (pfx_addrOk hf) d s
  | vunpckhpd128C5 | vunpckhpd128C4 | vunpckhpd256C5 | vunpckhpd256C4 =>
    exact beforeVex_prefixBytes (vexWellFormed_iff.1 hf).2.1
  | vunpckhpdEvex128 | vunpckhpdEvex256 | vunpckhpdEvex512 =>
    exact beforeVex_prefixBytes (evexWellFormed_iff.1 hf).2.1

/-- Prefix bytes that give the prefixes of a well-formed instruction, then its body, decode to it. -/
theorem decode_prefixes_body {m : Mode} {i : Instr} (hf : i.fieldsOk m = true) {pre : List Byte}
    (hpre : ∀ b ∈ pre, isPrefix (decide (m = .long64)) b = true) (hsc : (pre.foldl Scan.eat Scan.start).Precedes m i)
    (hlen : (pre ++ i.body).length ≤ Config.maxInstrBytes) (tail : List Byte) :
    decode m (pre ++ i.body ++ tail) = .ok (i, tail) := by
  refine decode_ok_of_window (ne_prot16_of_fieldsOk hf) hlen (fun t => ?_) tail
  rw [List.append_assoc, parseWindow_prefixes hpre]
  exact parseHead_body hf hsc t

theorem fieldsOk_of_wellFormed {m : Mode} {i : Instr} (h : i.wellFormed m = true) : i.fieldsOk m = true :=
  (Bool.and_eq_true_iff.1 h).1

theorem length_le_of_wellFormed {m : Mode} {i : Instr} (h : i.wellFormed m = true) : i.length ≤ Config.maxInstrBytes :=
  of_decide_eq_true (Bool.and_eq_true_iff.1 h).2

theorem lead_body_length (i : Instr) : (i.lead ++ i.body).length = i.length := by
  rw [← encode_eq_lead_body, encode_length]

theorem decode_encode {m : Mode} {i : Instr} (h : i.wellFormed m = true) (tail : List Byte) :
    decode m (encode i ++ tail) = .ok (i, tail) := by
  have hf := fieldsOk_of_wellFormed h
  rw [encode_eq_lead_body]
  exact decode_prefixes_body hf (fun b hb => isPrefix_of_mem_lead hf hb) (precedes_lead hf)
    ((lead_body_length i).trans_le (length_le_of_wellFormed h)) tail

/-- One 66H byte, or in `Long64` one REX byte, before form 1 (R83, R84). -/
theorem redundant_byte {m : Mode} {b : Byte} (h : b = 0x66 ∨ (m = .long64 ∧ b.extractLsb' 4 4 = 4)) :
    isPrefix (decide (m = .long64)) b = true ∧ ∃ ops dead, ops + dead = 1 ∧
      (Scan.start.eat b).killRex = { Scan.start with opsize := ops, deadRex := dead } := by
  obtain rfl | ⟨rfl, hb⟩ := h
  · exact ⟨rfl, 1, 0, rfl, rfl⟩
  · have hrex : isRex b = true := beq_iff_eq.2 hb
    exact ⟨by simp [isPrefix, hrex], 0, 1, rfl, by rw [Scan.eat_rex hrex]; rfl⟩

/-- A prefix byte before an encoding, where the scan then gives the prefixes of an instruction with the same body. -/
theorem decode_cons_encode {m : Mode} {b : Byte} {i i' : Instr} (hf : i.fieldsOk m = true) (hf' : i'.fieldsOk m = true)
    (hbody : i'.body = i.body) (hb : isPrefix (decide (m = .long64)) b = true)
    (hsc : (i.lead.foldl Scan.eat (Scan.start.eat b)).Precedes m i') (hlen : i.length ≤ 14) (tail : List Byte) :
    decode m (b :: (encode i ++ tail)) = .ok (i', tail) := by
  have hpre : ∀ c ∈ b :: i.lead, isPrefix (decide (m = .long64)) c = true := by
    rintro c (_ | ⟨_, hc⟩)
    · exact hb
    · exact isPrefix_of_mem_lead hf hc
  rw [encode_eq_lead_body, ← hbody]
  refine decode_prefixes_body hf' (pre := b :: i.lead) hpre hsc ?_ tail
  rw [hbody, List.cons_append, List.length_cons, lead_body_length]
  exact Nat.succ_le_succ hlen

/-! ## The byte that selects the parser (R80) -/

theorem parseHead_0F15 (m : Mode) (sc : Scan) (bs : List Byte) : parseHead m sc (0x0F :: 0x15 :: bs) = parseLegacy m sc bs := rfl

theorem parseHead_C5 (m : Mode) (sc : Scan) (bs : List Byte) : parseHead m sc (0xC5 :: bs) = parseC5 m sc bs := rfl

theorem parseHead_C4 (m : Mode) (sc : Scan) (bs : List Byte) : parseHead m sc (0xC4 :: bs) = parseC4 m sc bs := rfl

theorem parseHead_62 (m : Mode) (sc : Scan) (bs : List Byte) : parseHead m sc (0x62 :: bs) = parseEvex m sc bs := rfl

/-! ## The encoded length (R108) -/

theorem MemOperand.length_pos (m : MemOperand) : 1 ≤ m.length := by
  cases m <;> simp only [MemOperand.length] <;> omega

theorem RegMem.length_pos (o : RegMem) : 1 ≤ o.length := by
  cases o with
  | reg r => exact Nat.le_refl 1
  | mem m => exact m.length_pos

theorem RegMemBcst.length_pos (o : RegMemBcst) : 1 ≤ o.length := by
  cases o with
  | reg r => exact Nat.le_refl 1
  | mem m | bcst m => exact m.length_pos

/-- R108: opcode and ModRM, and 66H or the VEX or EVEX payload before them. -/
theorem four_le_length (i : Instr) : 4 ≤ i.length := by
  cases i with
  | unpckhpd _ _ o | unpckhpdRex _ _ o | vunpckhpd128C5 _ _ _ o | vunpckhpd128C4 _ _ _ o | vunpckhpd256C5 _ _ _ o
  | vunpckhpd256C4 _ _ _ o | vunpckhpdEvex128 _ _ _ _ o | vunpckhpdEvex256 _ _ _ _ o | vunpckhpdEvex512 _ _ _ _ o =>
    have := o.length_pos
    simp only [Instr.length]
    omega

/-! ## A byte that a form cannot carry -/

/-- Whether the bytes of a memory operand are all there does not depend on X and B. -/
theorem takeMem_ok_of_ok {mod : BitVec 2} {rm : BitVec 3} {x b : Bool} {bs : List Byte} {r : MemOperand × List Byte}
    (h : takeMem mod rm x b bs = .ok r) (x' b' : Bool) : ∃ r', takeMem mod rm x' b' bs = .ok r' := by
  unfold takeMem at h ⊢
  split at h
  · next hsib =>
    rw [if_pos hsib]
    cases bs with
    | nil => cases h
    | cons s bs =>
      simp only [takeSib] at h ⊢
      split at h
      · next hbase =>
        rw [if_pos hbase]
        split at h
        · exact ⟨_, rfl⟩
        · cases h
      · next hbase =>
        rw [if_neg hbase]
        split at h
        · exact ⟨_, rfl⟩
        · cases h
  · next hsib =>
    rw [if_neg hsib]
    split at h
    · next hbase => exact ⟨_, (if_pos hbase).trans h⟩
    · next hbase =>
      rw [if_neg hbase]
      split at h
      · exact ⟨_, rfl⟩
      · cases h

/-- The bytes of an operand are there whatever the address size and the extension bits. -/
theorem parseRM_ok_of_ok {wide x b : Bool} {bs : List Byte} {g : BitVec 3} {o : RawRM} {rest : List Byte}
    (h : parseRM wide x b bs = .ok (g, some o, rest)) (wide' x' b' : Bool) :
    ∃ g' o' rest', parseRM wide' x' b' bs = .ok (g', o', rest') := by
  cases bs with
  | nil => cases h
  | cons modrm bs =>
    simp only [parseRM] at h ⊢
    split at h
    · next hreg => exact ⟨_, _, _, if_pos hreg⟩
    · next hreg =>
      rw [if_neg hreg]
      cases wide' with
      | false => exact ⟨_, _, _, rfl⟩
      | true =>
        split at h
        · split at h
          · next hm =>
            obtain ⟨r', hr'⟩ := takeMem_ok_of_ok hm x' b'
            exact ⟨_, _, _, by rw [if_pos rfl, hr']⟩
          · cases h
        · cases h

/-- The bytes of form 1 are #UD after LOCK, F2H or F3H, where there is a 66H or the byte is F2H or F3H (R84). -/
theorem parseLegacy_invalid {m : Mode} {sc sc' : Scan} {bs rest : List Byte} {i : Instr} (h : parseLegacy m sc bs = .ok (i, rest))
    (hbad : (sc'.rep || sc'.lock) = true) (hops : sc'.opsize ≠ 0) : parseLegacy m sc' bs = .error .invalidOpcode := by
  unfold parseLegacy at h
  split at h
  · cases h
  · next hrm =>
    split at h
    · cases h
    · obtain ⟨-, -, -, -, o, p, rfl, -⟩ := finishForm_ok h
      obtain ⟨g', o', rest', hrm'⟩ := parseRM_ok_of_ok hrm (sc'.wide m) ((sc'.rex.getD 0).getLsbD 1) ((sc'.rex.getD 0).getLsbD 0)
      have h66 : (!sc'.rep && sc'.opsize == 0) = false := by simp [hops]
      simp only [parseLegacy, hrm', h66, hbad, finishForm, if_true, Bool.false_eq_true, if_false]

theorem parseVex_invalid {m : Mode} {sc sc' : Scan} {v : Vex} {bs rest : List Byte} {i : Instr}
    (h : parseVex m sc v bs = .ok (i, rest)) (hbad : sc'.badBeforeVex = true) :
    parseVex m sc' v bs = .error .invalidOpcode := by
  cases bs with
  | nil => cases h
  | cons op bs =>
    simp only [parseVex] at h ⊢
    split at h
    · cases h
    · next hop =>
      rw [if_neg hop]
      split at h
      · cases h
      · next hrm =>
        obtain ⟨-, -, -, -, o, p, rfl, -⟩ := finishForm_ok h
        obtain ⟨g', o', rest', hrm'⟩ := parseRM_ok_of_ok hrm (sc'.wide m) v.x v.b
        simp only [hrm', hbad, Bool.or_true, finishForm, if_true]

theorem parseEvexOperands_invalid {m : Mode} {sc sc' : Scan} {p0 p1 p2 : Byte} {bs rest : List Byte} {i : Instr}
    (h : parseEvexOperands m sc p0 p1 p2 bs = .ok (i, rest)) (hbad : sc'.badBeforeVex = true) :
    parseEvexOperands m sc' p0 p1 p2 bs = .error .invalidOpcode := by
  unfold parseEvexOperands at h ⊢
  split at h
  · cases h
  · next hrm =>
    split at h
    · cases h
    · obtain ⟨-, -, -, -, o, p, rfl, -⟩ := finishForm_ok h
      obtain ⟨g', o', rest', hrm'⟩ := parseRM_ok_of_ok hrm (sc'.wide m) (!p0.getLsbD 6) (!p0.getLsbD 5)
      simp only [hrm', hbad, Bool.or_true, finishForm, if_true]

theorem parseC5_invalid {m : Mode} {sc sc' : Scan} {bs rest : List Byte} {i : Instr}
    (h : parseHead m sc (0xC5 :: bs) = .ok (i, rest)) (hbad : sc'.badBeforeVex = true) :
    parseHead m sc' (0xC5 :: bs) = .error .invalidOpcode := by
  rw [parseHead_C5] at h ⊢
  cases bs with
  | nil => cases h
  | cons v bs =>
    simp only [parseC5] at h ⊢
    split at h
    · next hrec => rw [if_pos hrec]; exact parseVex_invalid h hbad
    · cases h

theorem parseC4_invalid {m : Mode} {sc sc' : Scan} {bs rest : List Byte} {i : Instr}
    (h : parseHead m sc (0xC4 :: bs) = .ok (i, rest)) (hbad : sc'.badBeforeVex = true) :
    parseHead m sc' (0xC4 :: bs) = .error .invalidOpcode := by
  rw [parseHead_C4] at h ⊢
  cases bs with
  | nil => cases h
  | cons v1 bs =>
    simp only [parseC4] at h ⊢
    split at h
    · next hrec =>
      rw [if_pos hrec]
      split at h
      · cases h
      · cases h
      · exact parseVex_invalid h hbad
      · unfold parseNoMap at h
        split at h
        · cases h
        · split at h <;> cases h
    · cases h

theorem parseEvex_invalid {m : Mode} {sc sc' : Scan} {bs rest : List Byte} {i : Instr}
    (h : parseHead m sc (0x62 :: bs) = .ok (i, rest)) (hbad : sc'.badBeforeVex = true) :
    parseHead m sc' (0x62 :: bs) = .error .invalidOpcode := by
  rw [parseHead_62] at h ⊢
  unfold parseEvex at h ⊢
  split at h
  · cases h
  · split at h
    · next hrec =>
      rw [if_pos hrec]
      split at h
      · split at h
        · cases h
        · next hother => rw [if_neg hother]; exact parseEvexOperands_invalid h hbad
      · cases h
    · cases h

/-- The body of form 1 is #UD after LOCK, F2H or F3H and a 66H (R84). -/
theorem parseHead_form1_invalid {m : Mode} {i : Instr} (hf : i.fieldsOk m = true)
    (hi : ∃ p d o, i = .unpckhpd p d o ∨ i = .unpckhpdRex p d o) {sc : Scan} (hbad : (sc.rep || sc.lock) = true)
    (hops : sc.opsize ≠ 0) (t : List Byte) : parseHead m sc (i.body ++ t) = .error .invalidOpcode := by
  have hok := parseHead_body hf (precedes_lead hf) t
  obtain ⟨p, d, o, rfl | rfl⟩ := hi
  · exact parseLegacy_invalid hok hbad hops
  · exact parseLegacy_invalid hok hbad hops

/-- The body of a VEX or EVEX form is #UD after LOCK, 66H, F2H, F3H or REX (R90, R100). -/
theorem parseHead_vex_invalid {m : Mode} {i : Instr} (hf : i.fieldsOk m = true)
    (hi : ∀ p d o, i ≠ .unpckhpd p d o ∧ i ≠ .unpckhpdRex p d o) {sc : Scan} (hbad : sc.badBeforeVex = true) (t : List Byte) :
    parseHead m sc (i.body ++ t) = .error .invalidOpcode := by
  have hok := parseHead_body hf (precedes_lead hf) t
  cases i with
  | unpckhpd p d o => exact absurd rfl (hi p d o).1
  | unpckhpdRex p d o => exact absurd rfl (hi p d o).2
  | vunpckhpd128C5 | vunpckhpd256C5 => exact parseC5_invalid hok hbad
  | vunpckhpd128C4 | vunpckhpd256C4 => exact parseC4_invalid hok hbad
  | vunpckhpdEvex128 | vunpckhpdEvex256 | vunpckhpdEvex512 => exact parseEvex_invalid hok hbad

/-! ## Bytes put among the prefixes -/

theorem take_encode {i : Instr} {n : Nat} (hn : n ≤ i.lead.length) : (encode i).take n = i.lead.take n := by
  rw [encode_eq_lead_body, List.take_append_of_le_length hn]

theorem drop_encode {i : Instr} {n : Nat} (hn : n ≤ i.lead.length) : (encode i).drop n = i.lead.drop n ++ i.body := by
  rw [encode_eq_lead_body, List.drop_append_of_le_length hn]

/-- Prefix bytes `mid` put among those of an encoding, after which its body is #UD, make it so. -/
theorem decode_insert_invalid {m : Mode} {i : Instr} (hf : i.fieldsOk m = true) {mid : List Byte}
    (hmid : ∀ b ∈ mid, isPrefix (decide (m = .long64)) b = true) {n : Nat} (hn : n ≤ i.lead.length)
    (hlen : i.length + mid.length ≤ Config.maxInstrBytes)
    (h : ∀ t, parseHead m ((i.lead.take n ++ mid ++ i.lead.drop n).foldl Scan.eat Scan.start) (i.body ++ t) =
      .error .invalidOpcode) (tail : List Byte) :
    decode m ((encode i).take n ++ (mid ++ ((encode i).drop n ++ tail))) = .error .invalidOpcode := by
  have hbytes : (encode i).take n ++ (mid ++ ((encode i).drop n ++ tail)) =
      i.lead.take n ++ mid ++ i.lead.drop n ++ i.body ++ tail := by
    simp only [take_encode hn, drop_encode hn, List.append_assoc]
  have hpre : ∀ b ∈ i.lead.take n ++ mid ++ i.lead.drop n, isPrefix (decide (m = .long64)) b = true := by
    simp only [List.mem_append]
    rintro b ((hb | hb) | hb)
    · exact isPrefix_of_mem_lead hf (List.mem_of_mem_take hb)
    · exact hmid b hb
    · exact isPrefix_of_mem_lead hf (List.mem_of_mem_drop hb)
  rw [hbytes]
  refine decode_error_append (ne_prot16_of_fieldsOk hf) ?_ (fun t => ?_) (by simp) tail
  · have hl := lead_body_length i
    simp only [List.length_append, List.length_take, List.length_drop] at hl ⊢
    omega
  · rw [List.append_assoc, parseWindow_prefixes hpre]
    exact h t

theorem mem_insert {c : Byte} {l : List Byte} (h : c ∈ l) (n : Nat) (mid : List Byte) : c ∈ l.take n ++ mid ++ l.drop n := by
  rw [← List.take_append_drop n l] at h
  simp only [List.mem_append] at h ⊢
  tauto

theorem pfx_length_le_lead (i : Instr) : i.pfx.length ≤ i.lead.length := by
  cases i <;> simp [Instr.lead, Instr.pfx]

/-- The lead of form 1 has a 66H byte beside its prefixes (R82). -/
theorem form1_lead {i : Instr} (h : ∃ p d o, i = .unpckhpd p d o ∨ i = .unpckhpdRex p d o) :
    0x66 ∈ i.lead ∧ i.pfx.length + 1 ≤ i.lead.length := by
  obtain ⟨p, d, o, rfl | rfl⟩ := h <;> simp [Instr.lead, Instr.pfx]

@[simp] theorem killRex_lock (sc : Scan) : sc.killRex.lock = sc.lock := by unfold Scan.killRex; split <;> rfl
@[simp] theorem killRex_rep (sc : Scan) : sc.killRex.rep = sc.rep := by unfold Scan.killRex; split <;> rfl

/-- How many REX bytes a scan has read, but for those that another REX byte directly followed. -/
def Scan.rexes (sc : Scan) : Nat := sc.deadRex + sc.rex.toList.length

theorem push_rexes (sc : Scan) (p : PrefixByte) : (sc.push p).rexes = sc.rexes := by
  cases p <;> exact killRex_rexes sc

/-- No byte undoes LOCK, F2H or F3H. -/
theorem eat_rep_lock {sc : Scan} (c : Byte) (h : (sc.rep || sc.lock) = true) : ((sc.eat c).rep || (sc.eat c).lock) = true := by
  unfold Scan.eat
  split
  · next p _ => cases p <;> simp [Scan.push] <;> simpa using h
  · exact h

/-- No byte undoes 66H. -/
theorem eat_opsize {sc : Scan} (c : Byte) (h : sc.opsize ≠ 0) : (sc.eat c).opsize ≠ 0 := by
  unfold Scan.eat
  split
  · next p _ => cases p <;> simp [Scan.push, h]
  · exact h

/-- No byte undoes REX. -/
theorem eat_rexes {sc : Scan} (c : Byte) (h : sc.rexes ≠ 0) : (sc.eat c).rexes ≠ 0 := by
  unfold Scan.eat
  split
  · rwa [push_rexes]
  · simp [Scan.rexes, Scan.pushRex]

theorem badBeforeVex_iff (sc : Scan) :
    sc.badBeforeVex = true ↔ (sc.rep || sc.lock) = true ∨ sc.opsize ≠ 0 ∨ sc.rexes ≠ 0 := by
  cases hr : sc.rex <;> simp [Scan.badBeforeVex, Scan.rexes, hr, Nat.pos_iff_ne_zero, or_comm, or_left_comm]

theorem eat_badBeforeVex {sc : Scan} (c : Byte) (h : sc.badBeforeVex = true) : (sc.eat c).badBeforeVex = true := by
  rw [badBeforeVex_iff] at h ⊢
  exact h.imp (eat_rep_lock c) (Or.imp (eat_opsize c) (eat_rexes c))

/-- LOCK, F2H and F3H. -/
theorem rep_lock_eat {b : Byte} (h : b = 0xF0 ∨ b = 0xF2 ∨ b = 0xF3) (sc : Scan) :
    ((sc.eat b).rep || (sc.eat b).lock) = true := by
  obtain rfl | rfl | rfl := h
  · exact Bool.or_true _
  · rfl
  · rfl

theorem opsize_eat_66 (sc : Scan) : (sc.eat 0x66).opsize ≠ 0 := Nat.succ_ne_zero _

/-- A byte of R90 and R100 is one the scan reads on, and bad before a VEX or EVEX byte. -/
theorem badBeforeVex_eat {m : Mode} {b : Byte}
    (h : b = 0xF0 ∨ b = 0x66 ∨ b = 0xF2 ∨ b = 0xF3 ∨ (m = .long64 ∧ b.extractLsb' 4 4 = 4)) :
    isPrefix (decide (m = .long64)) b = true ∧ ∀ sc : Scan, (sc.eat b).badBeforeVex = true := by
  simp only [badBeforeVex_iff]
  obtain rfl | rfl | rfl | rfl | ⟨rfl, hb⟩ := h
  · exact ⟨rfl, fun sc => .inl (rep_lock_eat (by simp) sc)⟩
  · exact ⟨rfl, fun sc => .inr (.inl (opsize_eat_66 sc))⟩
  · exact ⟨rfl, fun sc => .inl (rep_lock_eat (by simp) sc)⟩
  · exact ⟨rfl, fun sc => .inl (rep_lock_eat (by simp) sc)⟩
  · have hrex : isRex b = true := beq_iff_eq.2 hb
    exact ⟨by simp [isPrefix, hrex], fun sc => .inr (.inr (by rw [Scan.eat_rex hrex]; exact Nat.succ_ne_zero _))⟩

end Sys2Proof
end

section
/-!
SUPPORT. Rejections that the first bytes decide: illegal EVEX settings and neighbouring encodings (30_encoding.md rules R85, R88, R89,
R95, R96).
-/
namespace Sys2Proof

/-! ## The first byte -/

theorem parseWindow_stop {m : Mode} {b : Byte} (h : isPrefix (decide (m = .long64)) b = false) (bs : List Byte) :
    parseWindow m (b :: bs) = parseHead m Scan.start (b :: bs) := by
  simp only [parseWindow, scanPrefixes_stop h]

/-- Where no prefix stands before it, the first byte selects the parser whose rejection is the decoder's. -/
theorem decode_error_of_head {m : Mode} (hm : m ≠ .prot16) {b : Byte} (hb : isPrefix (decide (m = .long64)) b = false)
    {bs : List Byte} {e : Reject} (h : parseHead m Scan.start (b :: bs.take 14) = .error e) (he : e ≠ .truncated) :
    decode m (b :: bs) = .error e :=
  decode_error_of_window hm ((parseWindow_stop hb _).trans h) he

theorem decode_other {m : Mode} (hm : m ≠ .prot16) {b : Byte} (hb : isPrefix (decide (m = .long64)) b = false) {bs : List Byte}
    (h : parseHead m Scan.start (b :: bs.take 14) = .error .otherInstruction) :
    decode m (b :: bs) = .error .otherInstruction :=
  decode_error_of_head hm hb h (by decide)

/-- Bytes that agree in their windows, in what follows these and in their number decode alike. -/
theorem decode_congr {m : Mode} {bs bs' : List Byte}
    (hw : parseWindow m (bs.take Config.maxInstrBytes) = parseWindow m (bs'.take Config.maxInstrBytes))
    (hd : bs.drop Config.maxInstrBytes = bs'.drop Config.maxInstrBytes) (hl : bs.length = bs'.length) :
    decode m bs = decode m bs' := by
  simp only [decode, hw, hd, hl]

theorem isPrefix_C5 (long : Bool) : isPrefix long 0xC5 = false := by cases long <;> rfl
theorem isPrefix_C4 (long : Bool) : isPrefix long 0xC4 = false := by cases long <;> rfl
theorem isPrefix_62 (long : Bool) : isPrefix long 0x62 = false := by cases long <;> rfl

/-! ## An operand whose bytes are there (R101 to R103) -/

theorem takeD32_total {bs : List Byte} (h : 4 ≤ bs.length) : ∃ r, takeD32 bs = .ok r := by
  match bs, h with
  | a :: b :: c :: d :: bs, _ => exact ⟨_, rfl⟩

theorem takeDisp_total (mod : BitVec 2) {bs : List Byte} (h : 4 ≤ bs.length) : ∃ r, takeDisp mod bs = .ok r := by
  unfold takeDisp
  split
  · exact ⟨_, rfl⟩
  · split
    · match bs, h with
      | d :: bs, _ => exact ⟨_, rfl⟩
    · obtain ⟨r, hr⟩ := takeD32_total h
      exact ⟨_, by rw [hr]⟩

theorem takeMem_total (mod : BitVec 2) (rm : BitVec 3) (x b : Bool) {bs : List Byte} (h : 5 ≤ bs.length) :
    ∃ r, takeMem mod rm x b bs = .ok r := by
  unfold takeMem
  split
  · match bs, h with
    | s :: bs, h =>
      have h : 4 ≤ bs.length := Nat.le_of_succ_le_succ h
      obtain ⟨d32, hd32⟩ := takeD32_total h
      obtain ⟨d, hd⟩ := takeDisp_total mod h
      simp only [takeSib, hd32, hd]
      split <;> exact ⟨_, rfl⟩
  · obtain ⟨d32, hd32⟩ := takeD32_total (Nat.le_of_succ_le h)
    obtain ⟨d, hd⟩ := takeDisp_total mod (Nat.le_of_succ_le h)
    simp only [hd32, hd]
    split <;> exact ⟨_, rfl⟩

theorem parseRM_register {rm : Byte} (h : rm.extractLsb' 6 2 = 3) (wide x b : Bool) (bs : List Byte) :
    parseRM wide x b (rm :: bs) = .ok (rm.extractLsb' 3 3, some (.reg (rm.extractLsb' 0 3)), bs) := by
  simp only [parseRM, if_pos h]

/-- With a register operand, or with five more bytes, the operand is read. -/
theorem parseRM_total {rm : Byte} {bs : List Byte} (h : rm.extractLsb' 6 2 = 3 ∨ 5 ≤ bs.length) (x b : Bool) :
    ∃ g o rest, parseRM true x b (rm :: bs) = .ok (g, some o, rest) ∧ (rm.extractLsb' 6 2 = 3 → ∃ r, o = .reg r) := by
  by_cases hreg : rm.extractLsb' 6 2 = 3
  · exact ⟨_, _, _, parseRM_register hreg true x b bs, fun _ => ⟨_, rfl⟩⟩
  · obtain ⟨⟨op, rest⟩, hm⟩ := takeMem_total (rm.extractLsb' 6 2) (rm.extractLsb' 0 3) x b (h.resolve_left hreg)
    exact ⟨rm.extractLsb' 3 3, .mem op, rest, by simp only [parseRM, if_neg hreg, if_true, hm], fun h => absurd h hreg⟩

/-! ## EVEX settings (R85, R96) -/

theorem evexReserved_iff (p0 p1 : Byte) :
    evexReserved p0 p1 = true ↔ p0.extractLsb' 2 2 ≠ 0 ∨ p1.getLsbD 2 = false ∨ p0.extractLsb' 0 2 = 0 := by
  simp only [evexReserved, Bool.or_eq_true, bne_iff_ne, Bool.not_eq_true', beq_iff_eq, or_assoc]
  exact Iff.rfl

/-- At opcode 15H with reserved bits, or in map 0F with pp other than 00b, an EVEX encoding is no other instruction. -/
theorem evexOther_eq_false {p0 p1 : Byte}
    (h : evexReserved p0 p1 = true ∨ (p0.extractLsb' 0 2 = 1 ∧ p1.extractLsb' 0 2 ≠ 0)) : evexOther p0 p1 0x15 = false := by
  obtain h | ⟨hmap, hpp⟩ := h
  · rw [evexOther, h]
    rfl
  · have hpp : (p1.extractLsb' 0 2 == 0#2) = false := beq_eq_false_iff_ne.2 hpp
    rw [evexOther, hmap, hpp]
    exact Bool.and_false _

theorem parseHead_evex {p0 p1 op : Byte} (hother : evexOther p0 p1 op = false) (sc : Scan) (p2 : Byte) (bs : List Byte) :
    parseHead .long64 sc (0x62 :: p0 :: p1 :: p2 :: op :: bs) = parseEvexOperands .long64 sc p0 p1 p2 bs := by
  rw [parseHead_62]
  simp only [parseEvex, vexRecognised_of (m := .long64) (v := p0) (absurd rfl), if_true, hother, Bool.false_eq_true, if_false]

/-- R96: an EVEX encoding whose operand is there is #UD when L'L or another setting is illegal. -/
theorem decode_evex_illegal {p0 p1 p2 rm : Byte} {bs : List Byte} (hrm : rm.extractLsb' 6 2 = 3 ∨ 5 ≤ bs.length)
    (hother : evexOther p0 p1 0x15 = false)
    (h : ∀ o, (rm.extractLsb' 6 2 = 3 → ∃ r, o = .reg r) → evexLen p2 = none ∨ evexBad p0 p1 p2 (some o) = true) :
    decode .long64 (0x62 :: p0 :: p1 :: p2 :: 0x15 :: rm :: bs) = .error .invalidOpcode := by
  refine decode_error_of_head (by decide) (isPrefix_62 _) ((parseHead_evex hother ..).trans ?_) (by decide)
  have hrm : rm.extractLsb' 6 2 = 3 ∨ 5 ≤ (bs.take 9).length := hrm.imp_right fun h => by rw [List.length_take]; omega
  obtain ⟨g, o, rest, hparse, hreg⟩ := parseRM_total hrm (!p0.getLsbD 6) (!p0.getLsbD 5)
  have hparse : parseRM (Scan.start.wide .long64) (!p0.getLsbD 6) (!p0.getLsbD 5) (rm :: bs.take 9) = .ok (g, some o, rest) :=
    hparse
  simp only [parseEvexOperands, List.take_succ_cons, hparse]
  obtain hlen | hbad := h o hreg
  · rw [hlen]
  · cases evexLen p2 with
    | none => rfl
    | some vl => simp only [hbad, Bool.true_or, finishForm, if_true]

/-- A P0 byte with reserved bits 0, by its low four bits. -/
theorem map_of_low4 : ∀ p0 : Byte, (p0.extractLsb' 0 4 = 1 → p0.extractLsb' 2 2 = 0 ∧ p0.extractLsb' 0 2 = 1) ∧
    (p0.extractLsb' 0 4 = 2 → p0.extractLsb' 2 2 = 0 ∧ p0.extractLsb' 0 2 = 2) := by decide

/-- R85: without reserved bits, in another map or with pp = 00b, opcode 15H is another instruction's. -/
theorem decode_evex_other {p0 p1 : Byte} (hres : evexReserved p0 p1 = false)
    (h : p0.extractLsb' 0 2 ≠ 1 ∨ p1.extractLsb' 0 2 = 0) (p2 : Byte) (bs : List Byte) :
    decode .long64 (0x62 :: p0 :: p1 :: p2 :: 0x15 :: bs) = .error .otherInstruction := by
  have hother : evexOther p0 p1 0x15 = true := by
    rw [evexOther, hres]
    simpa using h
  refine decode_other (by decide) (isPrefix_62 _) ?_
  rw [parseHead_62]
  simp only [List.take_succ_cons, parseEvex, vexRecognised_of (m := .long64) (v := p0) (absurd rfl), if_true, hother]

/-! ## VEX settings (R85, R88) -/

theorem vexC4_flipW : ∀ v2 : Byte, (v2 ^^^ 0x80).extractLsb' 3 4 = v2.extractLsb' 3 4 ∧
    (v2 ^^^ 0x80).getLsbD 2 = v2.getLsbD 2 ∧ (v2 ^^^ 0x80).extractLsb' 0 2 = v2.extractLsb' 0 2 := by decide

/-- R88: no field of a three-byte VEX prefix comes from W. -/
theorem parseC4_flipW (m : Mode) (sc : Scan) (v1 v2 : Byte) (bs : List Byte) :
    parseC4 m sc (v1 :: v2 :: bs) = parseC4 m sc (v1 :: (v2 ^^^ 0x80) :: bs) := by
  obtain ⟨hv, hl, hpp⟩ := vexC4_flipW v2
  have hvex : vexC4 v1 (v2 ^^^ 0x80) = vexC4 v1 v2 := by simp only [vexC4, hv, hl, hpp]
  simp only [parseC4]
  cases vexMap v1 <;> simp only [hvex]

/-- With pp = 00b after C5H or C4H it is another instruction. -/
theorem parseVex_other {v : Vex} (h : v.pp = 0) (m : Mode) (sc : Scan) (op : Byte) (bs : List Byte) :
    parseVex m sc v (op :: bs) = .error .otherInstruction := by
  simp only [parseVex, h, or_true, if_true]

/-- With pp = 10b or 11b after C5H or C4H it is #UD. -/
theorem parseVex_invalid_pp {v : Vex} (h : v.pp = 2 ∨ v.pp = 3) (m : Mode) (sc : Scan) {rm : Byte} (hrm : rm.extractLsb' 6 2 = 3)
    (bs : List Byte) : parseVex m sc v (0x15 :: rm :: bs) = .error .invalidOpcode := by
  have h0 : ¬ ((0x15 : Byte) ≠ 0x15 ∨ v.pp = 0) := by obtain h | h := h <;> simp [h]
  have h1 : (v.pp != 1#2) = true := by obtain h | h := h <;> rw [h] <;> rfl
  simp only [parseVex, if_neg h0, parseRM_register hrm, h1, Bool.true_or, finishForm, if_true]

theorem parseHead_C5_long64 (sc : Scan) (v : Byte) (bs : List Byte) :
    parseHead .long64 sc (0xC5 :: v :: bs) = parseVex .long64 sc (vexC5 v) bs := by
  rw [parseHead_C5]
  simp only [parseC5, vexRecognised_of (m := .long64) (v := v) (absurd rfl), Vex.forMode, if_true]

theorem parseHead_C4_long64 {v1 : Byte} (h : v1.extractLsb' 0 5 = 1) (sc : Scan) (v2 : Byte) (bs : List Byte) :
    parseHead .long64 sc (0xC4 :: v1 :: v2 :: bs) = parseVex .long64 sc (vexC4 v1 v2) bs := by
  rw [parseHead_C4]
  simp only [parseC4, vexRecognised_of (m := .long64) (v := v1) (absurd rfl), Vex.forMode, vexMap, h, if_true]

/-- Outside `Long64` the byte after C5H, C4H or 62H without bits 7:6 = 11b belongs to LDS, LES or BOUND. -/
theorem vexRecognised_eq_false {m : Mode} {v : Byte} (hm : m ≠ .long64) (h : v.extractLsb' 6 2 ≠ 3) :
    vexRecognised m v = false := by
  have h : (v.extractLsb' 6 2 == 3#2) = false := beq_eq_false_iff_ne.2 h
  simp only [vexRecognised, hm, decide_false, h, Bool.or_self]

end Sys2Proof
end

section
/-!
SUPPORT. The address of a disp32 without base and the segment of a memory operand (30_encoding.md rules R104, R105, R107).
-/
namespace Sys2Proof.Machine

theorem addrBits_long64 {s : State} {p : Prefixes} (hm : s.mode = .long64) (ha : p.addr32 = false) : s.addrBits p = 64 :=
  if_pos ⟨hm, ha⟩

theorem addrBits_addr32 {p : Prefixes} (s : State) (ha : p.addr32 = true) : s.addrBits p = 32 :=
  if_neg fun h => absurd (ha.symm.trans h.2) (by decide)

theorem addrBits_other {s : State} (hm : s.mode ≠ .long64) (p : Prefixes) : s.addrBits p = 32 :=
  if_neg fun h => hm h.1

/-- R104: in `Long64` a disp32 without base is added to the address of the next instruction. -/
theorem effAddr_ripRelative {s : State} {bits : Nat} (hb : bits = 32 ∨ bits = 64) (hm : s.mode = .long64) (n len : Nat)
    (d : BitVec 32) :
    ((s.effAddr bits n len (.disp32 d)).toNat : Int) = (s.rip.toNat + len + d.toInt) % 2 ^ bits := by
  simp only [State.effAddr, hm, if_true]
  have hlen : ((BitVec.ofNat 64 len).toNat : Int) ≡ len [ZMOD 2 ^ bits] :=
    modEq_of_modEq_64 hb (by rw [BitVec.toNat_ofNat]; push_cast; exact Int.mod_modEq ..)
  exact narrow_eq_emod hb (add_modEq hb (add_modEq hb (Int.ModEq.refl _) hlen) (signExtend_modEq hb d (by decide)))

/-- R105: elsewhere it is the address. -/
theorem effAddr_disp32 {s : State} (hm : s.mode ≠ .long64) (n len : Nat) (d : BitVec 32) :
    (s.effAddr 32 n len (.disp32 d)).toNat = d.toNat := by
  simp only [State.effAddr, hm, if_false]
  have h : ((narrow 32 (d.signExtend 64)).toNat : Int) = d.toInt % 2 ^ 32 :=
    narrow_eq_emod (.inl rfl) (signExtend_modEq (.inl rfl) d (by decide))
  rw [BitVec.toInt_eq_toNat_cond] at h
  have := d.isLt
  split at h <;> omega

theorem base_is_stack : ∀ b : BitVec 4, (b.toNat = 4 ∨ b.toNat = 5) ↔ (b = 4 ∨ b = 5) := by decide

/-- An override replaces the segment, but in `Long64` only an FS or GS override. -/
theorem operandSeg_override {s : State} {p : Prefixes} {o : SegName} (hp : p.seg = some o) (m : MemOperand) :
    s.operandSeg p m = if o = .fs ∨ o = .gs ∨ s.mode ≠ .long64 then o else defaultSeg m := by
  cases o with
  | fs | gs => simp [State.operandSeg, hp]
  | es | cs | ss | ds => simp [State.operandSeg, hp]

end Sys2Proof.Machine
end

section
/-!
PROOFS. The obligations of 30_encoding.md: decoding what the encoder writes, the length, illegal prefixes and settings, neighbouring
encodings, the RIP-relative address and the segment of an operand.
-/
namespace Sys2Proof

/-- Settles O1: the lead of an encoding is scanned into its prefixes, and its body parsed into its fields. -/
theorem decodeEncodeRoundTrip : Obligations.DecodeEncodeRoundTrip :=
  fun _ _ tail h => decode_encode h tail

/-- Settles O3, by the soundness of every parser and the length of an operand. -/
theorem decodeConsumesLength : Obligations.DecodeConsumesLength := by
  intro m bs i rest h
  obtain ⟨hwf, hlen, hrest⟩ := decode_sound h
  have h15 : i.length ≤ 15 := of_decide_eq_true (Bool.and_eq_true_iff.1 hwf).2
  refine ⟨hlen, hrest, four_le_length i, h15, ?_⟩
  rintro p d k s1 o (rfl | rfl | rfl)
  all_goals
    have := o.length_pos
    simp only [Instr.length]
    omega

/-- Settles O5: the window's VEX prefix has the same fields, and what follows the window is the same. -/
theorem vexWIgnored : Obligations.VexWIgnored := by
  intro m v1 v2 bs
  have hw : parseWindow m (0xC4 :: v1 :: v2 :: bs.take 12) = parseWindow m (0xC4 :: v1 :: (v2 ^^^ 0x80) :: bs.take 12) := by
    rw [parseWindow_stop (isPrefix_C4 _), parseWindow_stop (isPrefix_C4 _), parseHead_C4, parseHead_C4, parseC4_flipW]
  exact decode_congr hw rfl rfl

/-- Settles O6: each setting makes `evexLen` or `evexBad` reject an encoding that is no other instruction. -/
theorem evexIllegalSettingsRejected : Obligations.EvexIllegalSettingsRejected := by
  intro p0 p1 p2 rm bs hrm h
  have hreserved (hres : evexReserved p0 p1 = true) :=
    decode_evex_illegal (p2 := p2) hrm (evexOther_eq_false (.inl hres)) fun o _ => .inr (by simp only [evexBad, hres, Bool.true_or])
  obtain h | h | h | ⟨hmap, hpp, h⟩ := h
  · exact hreserved ((evexReserved_iff p0 p1).2 (.inl h))
  · exact hreserved ((evexReserved_iff p0 p1).2 (.inr (.inl h)))
  · exact hreserved ((evexReserved_iff p0 p1).2 (.inr (.inr h)))
  · refine decode_evex_illegal hrm (evexOther_eq_false (.inr ⟨hmap, by rw [hpp]; decide⟩)) fun o ho => ?_
    obtain hw | hll | ⟨hz, haaa⟩ | ⟨hb, hreg⟩ := h
    · exact .inr (by simp only [evexBad, hw, Bool.not_false, Bool.or_true, Bool.true_or])
    · exact .inl (by rw [evexLen, hll]; rfl)
    · exact .inr (by simp [evexBad, hz, haaa])
    · obtain ⟨r, rfl⟩ := ho hreg
      exact .inr (by simp [evexBad, hb])

/-- Settles O9: each neighbour by the field of its prefix that decides it. -/
theorem neighboursAreNotTheInstruction : Obligations.NeighboursAreNotTheInstruction := by
  intro rm v v1 p0 p1 p2 bs hrm hv1 hp1
  have hres (h2 : p0.extractLsb' 2 2 = 0) (h0 : p0.extractLsb' 0 2 ≠ 0) : evexReserved p0 p1 = false := by
    rw [← Bool.not_eq_true, evexReserved_iff]
    exact fun h => h.elim (fun h => h h2) fun h => h.elim (by simp [hp1]) h0
  have h0F : isPrefix (decide (Mode.long64 = .long64)) 0x0F = false := rfl
  refine ⟨?_, ?_, ?_, fun hpp => ⟨?_, ?_⟩, fun hpp => ⟨?_, ?_⟩, fun hp0 hpp hw => ?_, fun hp0 hpp => ?_, fun hp0 => ?_⟩
  · refine decode_other (by decide) h0F ((parseHead_0F15 ..).trans ?_)
    simp only [parseLegacy, List.take_succ_cons, parseRM_register hrm]
    rfl
  · exact decode_other (by decide) h0F rfl
  · exact decode_error_of_window (by decide) rfl (by decide)
  · exact decode_other (by decide) (isPrefix_C5 _) ((parseHead_C5_long64 ..).trans (parseVex_other hpp ..))
  · exact decode_other (by decide) (isPrefix_C4 _) ((parseHead_C4_long64 hv1 ..).trans (parseVex_other hpp ..))
  · exact decode_error_of_head (by decide) (isPrefix_C5 _) ((parseHead_C5_long64 ..).trans (parseVex_invalid_pp hpp _ _ hrm _))
      (by decide)
  · exact decode_error_of_head (by decide) (isPrefix_C4 _)
      ((parseHead_C4_long64 hv1 ..).trans (parseVex_invalid_pp hpp _ _ hrm _)) (by decide)
  · obtain ⟨h2, h0⟩ := (map_of_low4 p0).1 hp0
    exact decode_evex_other (hres h2 (by rw [h0]; decide)) (.inr hpp) ..
  · obtain ⟨-, h0⟩ := (map_of_low4 p0).1 hp0
    refine decode_evex_illegal (.inl hrm) (evexOther_eq_false (.inr ⟨h0, ?_⟩)) fun o _ => .inr ?_
    · obtain h | h := hpp <;> rw [h] <;> decide
    · obtain h | h := hpp <;> simp [evexBad, h]
  · obtain ⟨h2, h0⟩ := (map_of_low4 p0).2 hp0
    exact decode_evex_other (hres h2 (by rw [h0]; decide)) (.inl (by rw [h0]; decide)) ..

/-- Settles O10: the byte after C5H, C4H or 62H decides. -/
theorem oldInstructionsOutsideLong64 : Obligations.OldInstructionsOutsideLong64 := by
  intro m v bs hm h16 hv
  have hrec := vexRecognised_eq_false hm hv
  refine ⟨decode_other h16 (isPrefix_C5 _) ?_, decode_other h16 (isPrefix_C4 _) ?_, decode_other h16 (isPrefix_62 _) ?_⟩
  · rw [parseHead_C5, List.take_succ_cons]
    simp only [parseC5, hrec, Bool.false_eq_true, if_false]
  · rw [parseHead_C4, List.take_succ_cons]
    simp only [parseC4, hrec, Bool.false_eq_true, if_false]
  · rw [parseHead_62, List.take_succ_cons]
    simp only [parseEvex, hrec, Bool.false_eq_true, if_false]

/-- Settles O7: every such byte leaves the scan bad before VEX, whatever comes after it. -/
theorem byteBeforeVexIsInvalid : Obligations.ByteBeforeVexIsInvalid := by
  intro m i b n tail hwf hi hb hn
  have hf := fieldsOk_of_wellFormed hwf
  obtain ⟨hpre, hbad⟩ := badBeforeVex_eat hb
  have hn : n ≤ i.lead.length := hn.trans (pfx_length_le_lead i)
  have hinvalid {mid : List Byte} (hmem : b ∈ mid) (t : List Byte) :=
    parseHead_vex_invalid hf hi (foldl_eat_of_mem (P := fun sc => sc.badBeforeVex = true)
      (pre := i.lead.take n ++ mid ++ i.lead.drop n) (fun _ => eat_badBeforeVex) hbad (by simp [hmem]) Scan.start) t
  refine ⟨fun hlen => ?_, fun _ hlen => ?_⟩
  · exact decode_insert_invalid hf (mid := [b]) (by simpa using hpre) hn (Nat.succ_le_succ hlen) (hinvalid (by simp)) tail
  · exact decode_insert_invalid hf (mid := [b, 0x67]) (by simpa using ⟨hpre, rfl⟩) hn (Nat.add_le_add_right hlen 2)
      (hinvalid (by simp)) tail

/-- Settles O8: LOCK, F2H and F3H stay in the scan, whatever comes after them, and so does the 66H of form 1. -/
theorem byteBeforeForm1IsInvalid : Obligations.ByteBeforeForm1IsInvalid := by
  intro m i b n tail hwf hlen hi hb hn
  have hf := fieldsOk_of_wellFormed hwf
  obtain ⟨h66, hn'⟩ := form1_lead hi
  have hpre : isPrefix (decide (m = .long64)) b = true := by obtain rfl | rfl | rfl := hb <;> rfl
  refine decode_insert_invalid hf (mid := [b]) (by simpa using hpre) (hn.trans hn') (Nat.succ_le_succ hlen) (fun t => ?_) tail
  refine parseHead_form1_invalid hf hi ?_ ?_ t
  · exact foldl_eat_of_mem (P := fun sc => (sc.rep || sc.lock) = true) (fun _ => eat_rep_lock) (rep_lock_eat hb) (by simp) _
  · exact foldl_eat_of_mem (P := fun sc => sc.opsize ≠ 0) (fun _ => eat_opsize) opsize_eat_66
      (mem_insert h66 n [b]) _

/-- Settles O11: the redundant byte is one more in the scan of the lead, and the body is the same. -/
theorem redundantByteBeforeForm1 : Obligations.RedundantByteBeforeForm1 := by
  intro m sg a n d o b tail hb
  obtain ⟨hpre, ops, dead, hone, hscan⟩ := redundant_byte hb
  refine ⟨fun hwf hlen => ?_, fun hwf hlen => ?_⟩
  · have hf := fieldsOk_of_wellFormed hwf
    refine decode_cons_encode (i' := .unpckhpd ⟨sg, a, n + 1⟩ d o) hf hf rfl hpre ?_ hlen tail
    exact hone ▸ precedes_unpckhpd hscan (pfx_addrOk hf) d o
  · have hf := fieldsOk_of_wellFormed hwf
    refine decode_cons_encode (i' := .unpckhpdRex ⟨sg, a, n + 1⟩ d o) hf hf rfl hpre ?_ hlen tail
    exact hone ▸ precedes_unpckhpdRex hscan (pfx_addrOk hf) d o

end Sys2Proof

namespace Sys2Proof.Machine

/-- Settles O38: the address is the sum reduced to the address size, outside `Long64` the displacement alone. -/
theorem ripRelativeAddress : Obligations.RipRelativeAddress := by
  intro s p n len d _
  simp only [State.locate]
  refine ⟨fun hm ha => ?_, fun hm ha => ?_, fun hm => ?_⟩
  · rw [addrBits_long64 hm ha]
    exact effAddr_ripRelative (.inr rfl) hm n len d
  · rw [addrBits_addr32 s ha]
    exact effAddr_ripRelative (.inl rfl) hm n len d
  · rw [addrBits_other hm]
    exact effAddr_disp32 hm n len d

/-- Settles O39: the default segment, and an override by its two cases. -/
theorem operandSegmentRule : Obligations.OperandSegmentRule := by
  intro s p n len b ix d m dflt hm
  have hdflt : defaultSeg m = dflt := by
    obtain ⟨rfl | rfl, rfl⟩ | ⟨⟨d32, rfl | rfl⟩, rfl⟩ := hm
    · simp only [defaultSeg, base_is_stack]
    · simp only [defaultSeg, base_is_stack]
    · rfl
    · rfl
  simp only [State.locate, ← hdflt]
  refine ⟨fun hp => ?_, fun o hp ho => ?_, fun o hp hfs hgs hlong => ?_⟩
  · simp only [State.operandSeg, hp]
  · rw [operandSeg_override hp, if_pos ho]
  · rw [operandSeg_override hp, if_neg (by simp [hfs, hgs, hlong])]

end Sys2Proof.Machine
end

section
/-!
SUPPORT. Fetching the bytes of an instruction, the executions of forms 1 to 3 that complete, and what reaches their result
(40_unpckhpd_sse_vex.md rules R130 to R136).
-/
namespace Sys2Proof.Machine

/-! ## Fetching (10_state.md R25) -/

/-- Bytes that can be fetched from byte `i` on are the first that are fetched. -/
theorem fetchFrom_eq_append {s : State} {bs : List Byte} {n i : Nat} (hlen : bs.length ≤ n)
    (h : ∀ k < bs.length, s.fetchByte (i + k) = bs[k]?) :
    s.fetchFrom n i = bs ++ s.fetchFrom (n - bs.length) (i + bs.length) := by
  induction bs generalizing n i with
  | nil => rfl
  | cons b bs ih =>
    cases n with
    | zero => cases hlen
    | succ n =>
      have hhead : s.fetchByte i = some b := by simpa using h 0 (by simp)
      have htail : s.fetchFrom n (i + 1) = bs ++ s.fetchFrom (n - bs.length) (i + 1 + bs.length) := by
        refine ih (by simpa using hlen) fun k hk => ?_
        have hnext := h (k + 1) (by simpa using hk)
        rwa [List.getElem?_cons_succ, Nat.add_comm k 1, ← Nat.add_assoc] at hnext
      simp only [State.fetchFrom, hhead, htail, List.length_cons, List.cons_append, Nat.add_sub_add_right,
        Nat.add_assoc, Nat.add_comm 1]

/-- A well-formed instruction whose bytes can be fetched is the first part of what is fetched. -/
theorem fetchBytes_eq_encode_append {s : State} {i : Instr} (hwf : i.wellFormed s.mode = true)
    (h : ∀ k < (encode i).length, s.fetchByte k = (encode i)[k]?) : ∃ tail, s.fetchBytes = encode i ++ tail := by
  have hlen : i.length ≤ Config.maxInstrBytes := of_decide_eq_true (Bool.and_eq_true_iff.1 hwf).2
  exact ⟨_, fetchFrom_eq_append (by rwa [encode_length]) (by simpa using h)⟩

/-! ## Executions that complete -/

/-- The frame of a completed instruction with a register second source (10_state.md R34). -/
theorem wroteOnly_finishOf (s : State) (i : Instr) (b : VecReg) : s.WroteOnly (s.finishOf i b) i.dest i.length := by
  rw [State.WroteOnly, finishOf_vec]
  rfl

/-- An allowed instruction whose second source is the register value `b` completes with its result. -/
theorem exec_of_register {s : State} {i : Instr} {b : VecReg} (hal : s.Allowed i) (hts : s.ts = false)
    (hm : s.mode ≠ .prot16) (hsrc : s.src2Of i = .ok (b, s)) :
    ∃ t, exec i s = .next t ∧ s.WroteOnly t i.dest i.length ∧ t.vec i.dest = s.resultOf i b :=
  ⟨_, exec_of_src2Of hal hts hm hsrc, wroteOnly_finishOf s i b, finishOf_vec s i b⟩

/-- The record of a read is the operand's load (20_memory.md R66). -/
theorem noteRead_eq (s : State) (k : OperandKind) (n : SegName) (ea : Word64) (size : Nat) :
    ∃ d, s.noteRead k n ea size = { s with reads := s.reads ++ [s.loadOf k n ea size], draws := d } := by
  cases k with
  | legacy | full | broadcast => exact ⟨_, rfl⟩

/-- Form 1 reads all 16 bytes of its operand or the upper 8 (R55). -/
theorem firstRead_legacy (s : State) : s.firstRead .legacy = 0 ∨ s.firstRead .legacy = 8 := by
  unfold State.firstRead
  split <;> simp

/-- The record of a read has no part in a result. -/
theorem resultOf_read (s : State) (rs : List Load) (d : Nat) (i : Instr) (b : VecReg) :
    ({ s with reads := rs, draws := d } : State).resultOf i b = s.resultOf i b := by
  cases i <;> rfl

/-- An allowed instruction whose second source is a readable operand completes with its result and its reads recorded. -/
theorem exec_of_readable {s : State} {i : Instr} {k : OperandKind} {l : Located} {words : Nat} {v : Nat → Word64}
    (hal : s.Allowed i) (hts : s.ts = false) (hr : s.Readable k l words v)
    (hsrc : s.src2Of i = s.readMem k (8 * words) l) :
    ∃ t, exec i s = .next t ∧ s.WroteAndRead t i.dest i.length (s.loadEvents l (s.firstRead k) (8 * words) v) ∧
      t.vec i.dest = s.resultOf i (bytesToVec (s.operandBytes l.seg l.ea (8 * words))) := by
  obtain ⟨d, hnote⟩ := noteRead_eq s k l.seg l.ea (8 * words)
  rw [readMem_of_readable s k l words v hr, hnote, loadOf_eq s k l words v hr.holds] at hsrc
  refine ⟨_, exec_of_src2Of hal hts (ne_prot16_of_wide hr.addressable.mode) hsrc, wroteAndRead_finishOf s i _ _ d, ?_⟩
  rw [finishOf_vec, resultOf_read]

/-! ## The rows of forms 1 to 3 -/

/-- What the two rows of form 1 have in common with a register second source (R131). -/
theorem form1_reg {p : Prefixes} {d r : BitVec 5} {i : Instr}
    (hi : i = .unpckhpd p d (.reg r) ∨ i = .unpckhpdRex p d (.reg r)) (s : State) :
    (s.LegacyAllowed → s.Allowed i) ∧ s.src2Of i = .ok (s.vec r, s) ∧ i.dest = d ∧
    ∀ b, s.resultOf i b = keepUpper (interleaveHigh .v128 (s.vec d) b) (s.vec d) := by
  obtain rfl | rfl := hi <;> exact ⟨id, rfl, rfl, fun _ => rfl⟩

/-- What the four rows of forms 2 and 3 have in common, with either kind of second source (R132, R133). -/
theorem vex_row {vl : VecLen} {p : Prefixes} {d a : BitVec 5} {o : RegMem} {i : Instr}
    (hi : (vl = .v128 ∧ (i = .vunpckhpd128C5 p d a o ∨ i = .vunpckhpd128C4 p d a o)) ∨
      (vl = .v256 ∧ (i = .vunpckhpd256C5 p d a o ∨ i = .vunpckhpd256C4 p d a o))) (s : State) :
    (s.VexAllowed → s.Allowed i) ∧ s.src2Of i = s.src2Vex vl p i.length o ∧ i.dest = d ∧
    ∀ b, s.resultOf i b = zeroUpper vl (interleaveHigh vl (s.vec a) b) := by
  obtain ⟨rfl, rfl | rfl⟩ | ⟨rfl, rfl | rfl⟩ := hi <;> exact ⟨id, rfl, rfl, fun _ => rfl⟩

/-! ## The elements that reach a result -/

/-- Element `j` of an interleaved value comes from the odd elements of the lane of `j` (R130). -/
theorem interleaved_congr {a a' b b' : Nat → Word64} {j : Nat} (ha : j % 2 = 0 → a (j + 1) = a' (j + 1))
    (hb : j % 2 = 1 → b j = b' j) : interleaved a b j = interleaved a' b' j := by
  unfold interleaved
  split
  · next h => exact ha h
  · next h => exact hb (by omega)

/-- The elements of the result of forms 2 and 3 (R132, R133). -/
theorem elemOf_vexResult (vl : VecLen) (a b : VecReg) :
    (∀ j < vl.kl, elemOf (zeroUpper vl (interleaveHigh vl a b)) j = interleaved (elemOf a) (elemOf b) j) ∧
    ∀ j, vl.kl ≤ j → elemOf (zeroUpper vl (interleaveHigh vl a b)) j = 0 := by
  refine ⟨fun j hj => ?_, fun j hj => ?_⟩
  · rw [elemOf_zeroUpper, if_pos hj, elemOf_interleaveHigh, if_pos hj]
  · rw [elemOf_zeroUpper, if_neg (Nat.not_lt.2 hj)]

/-- Vectors with the same odd elements interleave alike (R130). -/
theorem interleaveHigh_congr {a a' b b' : VecReg} (vl : VecLen) (ha : ∀ j, j % 2 = 1 → elemOf a j = elemOf a' j)
    (hb : ∀ j, j % 2 = 1 → elemOf b j = elemOf b' j) : interleaveHigh vl a b = interleaveHigh vl a' b' := by
  refine vec_ext _ _ fun j _ => ?_
  rw [elemOf_interleaveHigh, elemOf_interleaveHigh, interleaved_congr (fun h => ha (j + 1) (by omega)) (hb j)]

/-- Forms 2 and 3 with other source registers whose odd elements are the same. -/
theorem vunpckhpdVex_congr {s : State} {a a' b b' : BitVec 5} (vl : VecLen) (len : Nat) (p : Prefixes) (d : BitVec 5)
    (ha : ∀ j, j % 2 = 1 → elemOf (s.vec a) j = elemOf (s.vec a') j)
    (hb : ∀ j, j % 2 = 1 → elemOf (s.vec b) j = elemOf (s.vec b') j) :
    s.vunpckhpdVex vl len p d a (.reg b) = s.vunpckhpdVex vl len p d a' (.reg b') := by
  simp only [State.vunpckhpdVex, State.src2Vex, State.run, State.finishVex, interleaveHigh_congr vl ha hb]

end Sys2Proof.Machine
end

section
/-!
PROOFS. The obligations of 40_unpckhpd_sse_vex.md: what a step runs, the results of forms 1 to 3 with register and memory operands,
and the elements that reach none.
-/
namespace Sys2Proof.Machine

/-- Settles O12, through the fetched instruction. -/
theorem stepRunsDecoded : Obligations.StepRunsDecoded := by
  intro s i rest hx hd
  have hfetch : s.fetchInstr = .ok i := by simp only [State.fetchInstr, hd]
  simp only [step, hx, hfetch]

/-- Settles O13: what is fetched begins with the encoding, which decodes to the instruction whatever follows. -/
theorem stepRunsEncodedInstruction : Obligations.StepRunsEncodedInstruction := by
  intro s i hx hwf h
  obtain ⟨tail, hbytes⟩ := fetchBytes_eq_encode_append hwf h
  exact stepRunsDecoded s i tail hx (hbytes ▸ decode_encode hwf tail)

/-- Settles O17: a register second source is always read, and the result has the elements of R131. -/
theorem form1RegisterResult : Obligations.Form1RegisterResult := by
  intro s p d r i hal hts hi
  obtain ⟨hallowed, hsrc, rfl, hres⟩ := form1_reg hi s
  obtain ⟨t, ht, hframe, hvec⟩ := exec_of_register (hallowed hal) hts hal.mode hsrc
  exact ⟨t, ht, hframe, by rw [hvec, hres]; exact elemOf_form1Result _ _⟩

/-- Settles O18: the recorded load starts at byte 0 or 8, and element 1 is the operand's second word. -/
theorem form1MemoryResult : Obligations.Form1MemoryResult := by
  intro s p d m i v l hal hts hi hl hr
  obtain ⟨t, ht, hframe, hvec⟩ :=
    exec_form1_mem hal hts hi hl hr.addressable.mode (operandStop_of_readable s .legacy l 2 v hr)
  have hload : s.loadOf .legacy l.seg l.ea 16 = s.loadEvents l (s.firstRead .legacy) 16 v := loadOf_eq s .legacy l 2 v hr.holds
  obtain ⟨hzero, hone, hupper⟩ := elemOf_form1Result (s.vec d) (bytesToVec (s.operandBytes l.seg l.ea 16))
  rw [elemOf_operand_word (j := 1) (by decide) (by decide) (hr.holds 1 (by decide))] at hone
  refine ⟨t, _, ht, hframe, ?_, hvec ▸ hzero, hvec ▸ hone, hvec ▸ hupper⟩
  rw [hload]
  exact (firstRead_legacy s).imp (fun h => by rw [h]) fun h => by rw [h]

/-- Settles O20: a register second source is always read, and the result has the elements of R132 and R133. -/
theorem vexRegisterResult : Obligations.VexRegisterResult := by
  intro s vl p d a r i hal hts hi
  obtain ⟨hallowed, hsrc, rfl, hres⟩ := vex_row hi s
  obtain ⟨t, ht, hframe, hvec⟩ := exec_of_register (hallowed hal) hts (ne_prot16_of_wide hal.mode) hsrc
  exact ⟨t, ht, hframe, by rw [hvec, hres]; exact elemOf_vexResult vl _ _⟩

/-- Settles O21: a readable operand is read, and the odd elements of the second source are its words. -/
theorem vexMemoryResult : Obligations.VexMemoryResult := by
  rintro s vl p d a m i v l hal hts hi rfl hr
  obtain ⟨hallowed, hsrc, rfl, hres⟩ := vex_row hi s
  obtain ⟨t, ht, hframe, hvec⟩ := exec_of_readable (hallowed hal) hts hr hsrc
  obtain ⟨hbelow, habove⟩ := elemOf_vexResult vl (s.vec a) _
  rw [hres] at hvec
  refine ⟨t, ht, hframe, fun j hj => ?_, hvec ▸ habove⟩
  rw [hvec, hbelow j hj]
  refine interleaved_congr (fun _ => rfl) fun _ => ?_
  rw [elemOf_operand s _ _ vl.kl v hr.holds j (Nat.lt_of_lt_of_le hj (kl_le vl)), if_pos hj]

/-- Settles O58: each row is one execution of its length, in which the sources only interleave. -/
theorem lowElementsOfSourcesIgnored : Obligations.LowElementsOfSourcesIgnored :=
  fun _ p d _ _ _ _ ha hb => ⟨vunpckhpdVex_congr _ _ p d ha hb, vunpckhpdVex_congr _ _ p d ha hb,
    vunpckhpdVex_congr _ _ p d ha hb, vunpckhpdVex_congr _ _ p d ha hb⟩

end Sys2Proof.Machine
end

section
/-!
SUPPORT. The rows of forms 4 to 6 as one (`evexRow`), their second source and the elements of their result under a writemask
(41_vunpckhpd_evex.md rules R150 to R156).
-/
namespace Sys2Proof.Machine

/-! ## The rows of forms 4 to 6 (R152 to R154) -/

theorem eq_evexRow {vl : VecLen} {p : Prefixes} {d a : BitVec 5} {k : Mask} {o : RegMemBcst} {i : Instr}
    (hi : (vl = .v128 ∧ i = .vunpckhpdEvex128 p d k a o) ∨ (vl = .v256 ∧ i = .vunpckhpdEvex256 p d k a o) ∨
      (vl = .v512 ∧ i = .vunpckhpdEvex512 p d k a o)) : i = evexRow vl p d k a o := by
  obtain ⟨rfl, rfl⟩ | ⟨rfl, rfl⟩ | ⟨rfl, rfl⟩ := hi <;> rfl

section
variable (vl : VecLen) (p : Prefixes) (d a : BitVec 5) (k : Mask) (o : RegMemBcst)

@[simp] theorem allowed_evexRow (s : State) : s.Allowed (evexRow vl p d k a o) ↔ s.EvexAllowed vl := by
  cases vl <;> rfl

@[simp] theorem evexRow_dest : (evexRow vl p d k a o).dest = d := by
  cases vl <;> rfl

theorem src2Of_evexRow (s : State) :
    s.src2Of (evexRow vl p d k a o) = s.src2Evex vl p (evexRow vl p d k a o).length o := by
  cases vl <;> rfl

/-- A full-width operand has VL/8 bytes, in units of which a one-byte displacement counts (R150; 30_encoding.md R106). -/
theorem src2Of_evexRow_mem (s : State) (m : MemOperand) :
    s.src2Of (evexRow vl p d k a (.mem m)) =
      s.readMem .full (8 * vl.kl) (s.locate p (8 * vl.kl) (evexRow vl p d k a (.mem m)).length m) :=
  src2Of_evexRow ..

theorem resultOf_evexRow (s : State) (b : VecReg) :
    s.resultOf (evexRow vl p d k a o) b = maskWrite vl k s.opmask (interleaveHigh vl (s.vec a) b) (s.vec d) := by
  cases vl <;> rfl

end

/-! ## Reading the second source (R150) -/

/-- The broadcast operand is one quadword, copied to every element. -/
theorem src2Evex_bcst {s : State} {m : MemOperand} {p : Prefixes} {len : Nat} {e : Word64}
    (hr : s.Readable .broadcast (s.locate p 8 len m) 1 fun _ => e) (vl : VecLen) :
    s.src2Evex vl p len (.bcst m) = .ok (broadcast vl e,
      s.noteRead .broadcast (s.locate p 8 len m).seg (s.locate p 8 len m).ea 8) := by
  have hread := readMem_of_readable s .broadcast _ 1 _ hr
  have hword := elemOf_operand_word (size := 8) (by decide) (by decide) (hr.holds 0 (by decide))
  rw [elemOf_lt _ 0 (by decide)] at hword
  simp only [State.src2Evex, hread, hword]

/-- An allowed instruction completes with the result of whatever second source its readable operand gives, the reads recorded. -/
theorem exec_of_noteRead {s : State} {i : Instr} {k : OperandKind} {l : Located} {words : Nat} {v : Nat → Word64} {b : VecReg}
    (hal : s.Allowed i) (hts : s.ts = false) (hr : s.Readable k l words v)
    (hsrc : s.src2Of i = .ok (b, s.noteRead k l.seg l.ea (8 * words))) :
    ∃ t, exec i s = .next t ∧ s.WroteAndRead t i.dest i.length (s.loadEvents l (s.firstRead k) (8 * words) v) ∧
      t.vec i.dest = s.resultOf i b := by
  obtain ⟨n, hnote⟩ := noteRead_eq s k l.seg l.ea (8 * words)
  rw [hnote, loadOf_eq s k l words v hr.holds] at hsrc
  refine ⟨_, exec_of_src2Of hal hts (ne_prot16_of_wide hr.addressable.mode) hsrc, wroteAndRead_finishOf s i _ _ n, ?_⟩
  rw [finishOf_vec, resultOf_read]

/-- Forms 4 and 5 read the same second source as forms 2 and 3 where it is the same register or lies at the same place. -/
theorem same_source {s : State} {vl : VecLen} {p q : Prefixes} {n n' : Nat} {o : RegMemBcst} {o' : RegMem}
    (h : (∃ r, o = .reg r ∧ o' = .reg r) ∨
      (∃ m m' l v, o = .mem m ∧ o' = .mem m' ∧ l = s.locate p (8 * vl.kl) n m ∧ l = s.locate q 1 n' m' ∧
        s.Readable .full l vl.kl v)) :
    ∃ b u, s.src2Evex vl p n o = .ok (b, u) ∧ s.src2Vex vl q n' o' = .ok (b, u) := by
  obtain ⟨r, rfl, rfl⟩ | ⟨m, m', l, v, rfl, rfl, hl, hl', hr⟩ := h
  · exact ⟨_, _, rfl, rfl⟩
  · have hread := readMem_of_readable s .full l vl.kl v hr
    exact ⟨_, _, (congrArg (s.readMem .full _) hl.symm).trans hread, (congrArg (s.readMem .full _) hl'.symm).trans hread⟩

/-! ## The elements of a masked result (R151) -/

/-- The elements of the destination of forms 4 to 6 when the second source `b` has the elements `w` below KL. -/
theorem elemOf_evexResult {s t : State} {vl : VecLen} {p : Prefixes} {d a : BitVec 5} {k : Mask} {o : RegMemBcst} {b : VecReg}
    {w : Nat → Word64} (hvec : t.vec (evexRow vl p d k a o).dest = s.resultOf (evexRow vl p d k a o) b)
    (hb : ∀ j < vl.kl, elemOf b j = w j) :
    (∀ j < vl.kl, elemOf (t.vec d) j = maskedElem k s.opmask (s.vec d) (interleaved (elemOf (s.vec a)) w j) j) ∧
    ∀ j, vl.kl ≤ j → elemOf (t.vec d) j = 0 := by
  rw [evexRow_dest, resultOf_evexRow] at hvec
  rw [hvec]
  refine ⟨fun j hj => ?_, fun j hj => ?_⟩
  · rw [elemOf_maskWrite, if_pos hj, elemOf_interleaveHigh, if_pos hj, interleaved_congr (fun _ => rfl) fun _ => hb j hj]
  · rw [elemOf_maskWrite, if_neg (Nat.not_lt.2 hj)]

/-- Without a writemask every element below KL is written (R155). -/
theorem maskWrite_none (vl : VecLen) (ks : Vector Word64 8) (t old : VecReg) : maskWrite vl .none ks t old = zeroUpper vl t :=
  vec_ext _ _ fun j _ => by rw [elemOf_maskWrite, elemOf_zeroUpper]; rfl

/-- An element of a masked result consults one bit of the selected opmask register, and none without a writemask (R155, R156). -/
theorem maskedElem_congr {k : Mask} {ks ks' : Vector Word64 8} {j : Nat}
    (h : ∀ n : BitVec 3, k = .merge n ∨ k = .zero n → (ks[n.toNat]'n.isLt).getLsbD j = (ks'[n.toNat]'n.isLt).getLsbD j)
    (old : VecReg) (x : Word64) : maskedElem k ks old x j = maskedElem k ks' old x j := by
  cases k with
  | none => rfl
  | merge n => simp only [maskedElem, h n (.inl rfl)]
  | zero n => simp only [maskedElem, h n (.inr rfl)]

/-- Opmask registers that agree below KL give the same masked result (R156). -/
theorem maskWrite_congr {vl : VecLen} {k : Mask} {ks ks' : Vector Word64 8}
    (h : ∀ n : BitVec 3, k = .merge n ∨ k = .zero n → ∀ j < vl.kl,
      (ks[n.toNat]'n.isLt).getLsbD j = (ks'[n.toNat]'n.isLt).getLsbD j) (t old : VecReg) :
    maskWrite vl k ks t old = maskWrite vl k ks' t old := by
  refine vec_ext _ _ fun j _ => ?_
  rw [elemOf_maskWrite, elemOf_maskWrite]
  split
  · next hj => exact maskedElem_congr (fun n hn => h n hn j hj) _ _
  · rfl

/-! ## Executions that can be compared -/

/-- A processor and a state that allow forms 4 to 6 allow forms 2 and 3 (R174, R175). -/
theorem vexAllowed_of_evexAllowed {s : State} {vl : VecLen} (h : s.EvexAllowed vl) : s.VexAllowed where
  mode := h.mode
  osxsave := h.osxsave
  xcr0 := h.xcr0
  xsave := h.xsave
  avx := by
    have hproc := h.proc
    simp only [Processor.ok, h.avx512f, Bool.not_true, Bool.false_or, Bool.and_eq_true] at hproc
    obtain ⟨⟨-, havx, -⟩, -⟩ := hproc
    exact havx
  proc := h.proc

/-- Two allowed instructions with the same second source, destination and result give every vector register the same value. -/
theorem exec_zmm_eq {s u : State} {i j : Instr} {b : VecReg} (hi : s.Allowed i) (hj : s.Allowed j) (hts : s.ts = false)
    (hm : s.mode ≠ .prot16) (hsi : s.src2Of i = .ok (b, u)) (hsj : s.src2Of j = .ok (b, u)) (hdest : i.dest = j.dest)
    (hres : u.resultOf i b = u.resultOf j b) :
    ∃ t t', exec i s = .next t ∧ exec j s = .next t' ∧ t.zmm = t'.zmm :=
  ⟨_, _, exec_of_src2Of hi hts hm hsi, exec_of_src2Of hj hts hm hsj, by simp only [State.finishOf, hdest, hres]; rfl⟩

/-- Finishing commutes with another MXCSR and other opmask registers that give the same result. -/
theorem finishOf_mapStatus {x : BitVec 32 → BitVec 32} {ks : Vector Word64 8 → Vector Word64 8} {t : State} {i : Instr}
    {b : VecReg} (h : (t.mapStatus x ks).resultOf i b = t.resultOf i b) :
    (t.mapStatus x ks).finishOf i b = (t.finishOf i b).mapStatus x ks := by
  rw [State.finishOf, h]
  rfl

end Sys2Proof.Machine
end

section
/-!
PROOFS. The obligations of 41_vunpckhpd_evex.md: the results of forms 4 to 6 with register, full-width and broadcast operands, the
unmasked forms against forms 2 and 3, and the opmask bits that are consulted.
-/
namespace Sys2Proof.Machine

/-- Settles O22: a register second source is always read, and the masked result has the elements of R151. -/
theorem evexRegisterResult : Obligations.EvexRegisterResult := by
  intro s vl p d a r k i hal hts hi
  obtain rfl := eq_evexRow hi
  have hsrc : s.src2Of (evexRow vl p d k a (.reg r)) = .ok (s.vec r, s) := src2Of_evexRow ..
  obtain ⟨t, ht, hframe, hvec⟩ := exec_of_register ((allowed_evexRow ..).2 hal) hts (ne_prot16_of_wide hal.mode) hsrc
  exact ⟨t, ht, by rwa [evexRow_dest] at hframe, elemOf_evexResult hvec fun _ _ => rfl⟩

/-- Settles O23: a readable operand is read, and the elements of the second source are its words. -/
theorem evexMemoryResult : Obligations.EvexMemoryResult := by
  rintro s vl p d a k m i v l hal hts hi rfl hr
  obtain rfl := eq_evexRow hi
  obtain ⟨t, ht, hframe, hvec⟩ := exec_of_readable ((allowed_evexRow ..).2 hal) hts hr (src2Of_evexRow_mem ..)
  refine ⟨t, ht, by rwa [evexRow_dest] at hframe, elemOf_evexResult hvec fun j hj => ?_⟩
  rw [elemOf_operand s _ _ vl.kl v hr.holds j (Nat.lt_of_lt_of_le hj (kl_le vl)), if_pos hj]

/-- Settles O24: the one quadword read stands in every element of the second source. -/
theorem evexBroadcastResult : Obligations.EvexBroadcastResult := by
  rintro s vl p d a k m i e l hal hts hi rfl hr
  obtain rfl := eq_evexRow hi
  obtain ⟨t, ht, hframe, hvec⟩ := exec_of_noteRead ((allowed_evexRow ..).2 hal) hts hr
    ((src2Of_evexRow ..).trans (src2Evex_bcst hr vl))
  refine ⟨t, ht, by rwa [evexRow_dest] at hframe, elemOf_evexResult hvec fun j hj => ?_⟩
  rw [elemOf_broadcast, if_pos hj]

/-- Settles O25: the two rows read the same second source, and without a writemask they write the same value. -/
theorem unmaskedEvexMatchesVex : Obligations.UnmaskedEvexMatchesVex := by
  intro s vl p q d a o o' i j hal hts hij hop
  obtain ⟨hi, hj⟩ : i = evexRow vl p d .none a o ∧
      ((vl = .v128 ∧ (j = .vunpckhpd128C5 q d a o' ∨ j = .vunpckhpd128C4 q d a o')) ∨
        (vl = .v256 ∧ (j = .vunpckhpd256C5 q d a o' ∨ j = .vunpckhpd256C4 q d a o'))) := by
    obtain ⟨rfl, rfl, hj⟩ | ⟨rfl, rfl, hj⟩ := hij
    · exact ⟨rfl, .inl ⟨rfl, hj⟩⟩
    · exact ⟨rfl, .inr ⟨rfl, hj⟩⟩
  subst hi
  obtain ⟨hallowed, hsrc, hdest, -⟩ := vex_row hj s
  obtain ⟨b, u, hsi, hsj⟩ := same_source hop
  obtain ⟨-, -, -, hres⟩ := vex_row hj u
  refine exec_zmm_eq ((allowed_evexRow ..).2 hal) (hallowed (vexAllowed_of_evexAllowed hal)) hts
    (ne_prot16_of_wide hal.mode) ((src2Of_evexRow ..).trans hsi) (hsrc.trans hsj) (by rw [evexRow_dest, hdest]) ?_
  rw [resultOf_evexRow, maskWrite_none, hres]

/-- Settles O55: reading the second source leaves the opmask registers alone, and the masked result consults their bits below KL
only. -/
theorem upperMaskBitsIgnored : Obligations.UpperMaskBitsIgnored := by
  intro s vl ks p d a k o i hi hagree
  obtain rfl := eq_evexRow hi
  refine exec_mapStatus id (fun _ => ks) _ s fun b t hsrc => finishOf_mapStatus ?_
  obtain ⟨rs, n, rfl⟩ := (sourceSound_src2Of s _).1 b t hsrc
  rw [resultOf_evexRow, resultOf_evexRow]
  exact maskWrite_congr hagree _ _

end Sys2Proof.Machine
end

section
/-!
SUPPORT. The gate of each form by its #UD conditions (60_exceptions.md rules R173 to R176), an execution whose second source is a
register, and a step that raises.
-/
namespace Sys2Proof.Machine

/-! ## The #UD conditions of the state -/

/-- The #UD conditions on the state of a class of forms (60_exceptions.md R173 to R175). -/
def State.udOf (s : State) : GateClass → Bool
  | .legacy => s.udLegacy
  | .vex vl => s.udVex vl
  | .evex vl => s.udEvex vl

theorem gateOf_eq_gate (s : State) (g : GateClass) : s.gateOf g = s.gate (s.udOf g) := by
  cases g <;> rfl

/-- A #UD condition raises #UD, whatever CR0.TS and the operands are. -/
theorem exec_of_ud {s : State} {i : Instr} (hm : s.mode ≠ .prot16) (h : s.udOf (gateClassOf i) = true) :
    exec i s = .next (s.raise (.plain .ud)) := by
  have hgate : s.gateOf (gateClassOf i) = some .ud := by rw [gateOf_eq_gate, h]; rfl
  rw [exec_eq, hgate, run_gate _ _ _ _ hm]

/-- CR0.TS = 1 without a #UD condition raises #NM, whatever the operands are (60_exceptions.md R176). -/
theorem exec_of_ts {s : State} {i : Instr} (hm : s.mode ≠ .prot16) (h : s.udOf (gateClassOf i) = false) (hts : s.ts = true) :
    exec i s = .next (s.raise (.plain .nm)) := by
  have hgate : s.gateOf (gateClassOf i) = some .nm := by simp [gateOf_eq_gate, h, State.gate, hts]
  rw [exec_eq, hgate, run_gate _ _ _ _ hm]

theorem udOf_of_allowed {s : State} {i : Instr} (h : s.Allowed i) : s.udOf (gateClassOf i) = false := by
  cases i with
  | unpckhpd | unpckhpdRex => exact udLegacy_of_allowed h
  | vunpckhpd128C5 | vunpckhpd128C4 | vunpckhpd256C5 | vunpckhpd256C4 => exact udVex_of_allowed h (by decide)
  | vunpckhpdEvex128 | vunpckhpdEvex256 | vunpckhpdEvex512 => exact udEvex_of_allowed h

theorem ne_prot16_of_allowed {s : State} {i : Instr} (h : s.Allowed i) : s.mode ≠ .prot16 := by
  cases i with
  | unpckhpd | unpckhpdRex => exact State.LegacyAllowed.mode h
  | vunpckhpd128C5 | vunpckhpd128C4 | vunpckhpd256C5 | vunpckhpd256C4 => exact ne_prot16_of_wide (State.VexAllowed.mode h)
  | vunpckhpdEvex128 | vunpckhpdEvex256 | vunpckhpdEvex512 => exact ne_prot16_of_wide (State.EvexAllowed.mode h)

/-- The #UD conditions on the mode, CR4 and XCR0[2:1] that forms 2 to 6 share (60_exceptions.md R174, R175; log 34). -/
structure State.AvxEnabled (s : State) : Prop where
  mode : s.noVexMode = false
  osxsave : s.osxsave = true
  avxState : s.avxState = true

theorem not_avxEnabled {s : State} (h : s.osxsave = false ∨ s.xcr0.extractLsb' 1 2 ≠ 3#2 ∨ s.proc.hasXSAVE = false ∨
    s.mode = .real ∨ s.mode = .v86) : ¬ s.AvxEnabled := by
  rintro ⟨hmode, hos, havx⟩
  obtain ⟨hxsave, hxcr0⟩ := (avxState_iff s).1 havx
  obtain ⟨hreal, hv86⟩ : s.mode ≠ .real ∧ s.mode ≠ .v86 := by simpa [State.noVexMode] using hmode
  obtain h | h | h | h | h := h
  · simp [hos] at h
  · exact h hxcr0
  · simp [hxsave] at h
  · exact hreal h
  · exact hv86 h

/-- Forms 2 and 3 have no #UD condition only with AVX enabled and supported (60_exceptions.md R174). -/
theorem avxEnabled_of_udVex {s : State} {vl : VecLen} (h : s.udVex vl = false) : s.AvxEnabled ∧ s.proc.hasAVX = true := by
  simp only [State.udVex, Bool.or_eq_false_iff, Bool.not_eq_false'] at h
  obtain ⟨⟨⟨⟨hmode, hos⟩, hstate⟩, havx⟩, -⟩ := h
  exact ⟨⟨hmode, hos, hstate⟩, havx⟩

/-- Forms 4 to 6 have no #UD condition only with AVX-512 enabled and supported (60_exceptions.md R175). -/
theorem avxEnabled_of_udEvex {s : State} {vl : VecLen} (h : s.udEvex vl = false) :
    s.AvxEnabled ∧ s.xcr0.extractLsb' 5 3 = 7#3 ∧ s.proc.hasAVX512F = true ∧ s.vlMissing vl = false := by
  simp only [State.udEvex, Bool.or_eq_false_iff, Bool.not_eq_false'] at h
  obtain ⟨⟨⟨⟨⟨⟨hmode, hos⟩, hstate⟩, hzmm⟩, hf⟩, hvl⟩, -⟩ := h
  exact ⟨⟨hmode, hos, hstate⟩, ((zmmState_iff s).1 hzmm).2, hf, hvl⟩

/-- Each condition of R174 makes forms 2 and 3 undefined. -/
theorem udVex_of_condition {s : State} (vl : VecLen)
    (h : s.osxsave = false ∨ s.xcr0.extractLsb' 1 2 ≠ 3#2 ∨ s.proc.hasXSAVE = false ∨ s.proc.hasAVX = false ∨
      s.mode = .real ∨ s.mode = .v86) : s.udVex vl = true := by
  rw [← Bool.not_eq_false]
  intro hopen
  obtain ⟨henabled, havx⟩ := avxEnabled_of_udVex hopen
  have hblocked : ¬ s.AvxEnabled := not_avxEnabled (by simpa [havx] using h)
  exact hblocked henabled

/-- Each condition of R175 makes a form of length `vl` undefined. -/
theorem udEvex_of_condition {s : State} {vl : VecLen}
    (h : s.osxsave = false ∨ s.xcr0.extractLsb' 1 2 ≠ 3#2 ∨ s.xcr0.extractLsb' 5 3 ≠ 7#3 ∨ s.proc.hasAVX512F = false ∨
      s.vlMissing vl = true ∨ s.proc.hasXSAVE = false ∨ s.mode = .real ∨ s.mode = .v86) : s.udEvex vl = true := by
  rw [← Bool.not_eq_false]
  intro hopen
  obtain ⟨henabled, hzmm, hf, hvl⟩ := avxEnabled_of_udEvex hopen
  have hblocked : ¬ s.AvxEnabled := not_avxEnabled (by simpa [hzmm, hf, hvl] using h)
  exact hblocked henabled

/-! ## A register second source -/

/-- An instruction without a memory operand reads one register, in every state. -/
theorem src2Of_of_register {i : Instr} (h : i.memAccess = none) : ∃ r, ∀ s : State, s.src2Of i = .ok (s.vec r, s) := by
  cases i with
  | unpckhpd _ _ o | unpckhpdRex _ _ o | vunpckhpd128C5 _ _ _ o | vunpckhpd128C4 _ _ _ o | vunpckhpd256C5 _ _ _ o
  | vunpckhpd256C4 _ _ _ o =>
    cases o with
    | reg r => exact ⟨r, fun _ => rfl⟩
    | mem m => cases h
  | vunpckhpdEvex128 _ _ _ _ o | vunpckhpdEvex256 _ _ _ _ o | vunpckhpdEvex512 _ _ _ _ o =>
    cases o with
    | reg r => exact ⟨r, fun _ => rfl⟩
    | mem m | bcst m => cases h

/-! ## The memory operand -/

/-- A broadcast operand has 8 bytes (20_memory.md R51). -/
theorem size_of_broadcast {i : Instr} {a : MemAccess} (ha : i.memAccess = some a) (hk : a.kind = .broadcast) : a.size = 8 := by
  have hregMem : ∀ kind size o, kind ≠ .broadcast → memOfRegMem kind size o ≠ some a := by
    rintro kind size (r | m) hne h <;> cases h
    exact hne hk
  have hbcst : ∀ size o, memOfBcst size o = some a → a.size = 8 := by
    rintro size (r | m | m) h <;> cases h
    · cases hk
    · rfl
  cases i with
  | unpckhpd | unpckhpdRex | vunpckhpd128C5 | vunpckhpd128C4 | vunpckhpd256C5 | vunpckhpd256C4 =>
    exact absurd ha (hregMem _ _ _ (by decide))
  | vunpckhpdEvex128 | vunpckhpdEvex256 | vunpckhpdEvex512 => exact hbcst _ _ ha

section
variable {s : State} {k : OperandKind} {bits size : Nat} {n : SegName} {ea : Word64}

/-- An operand with a byte on a page that faults raises a #PF (60_exceptions.md R178). -/
theorem pageStop_isSome {j : Nat} {c : BitVec 32} (hj : j < size) (h : s.translate (s.linear n ea j) = .error c) :
    ∃ o, s.pageStop n ea size = some o := by
  have hmem : (s.linear n ea j, c) ∈ s.faultingBytes n ea size :=
    List.mem_filterMap.2 ⟨j, List.mem_range.2 hj, by simp only [h]⟩
  cases hb : s.faultingBytes n ea size with
  | nil => simp [hb] at hmem
  | cons f fs =>
    simp only [State.pageStop, hb]
    exact ⟨_, rfl⟩

/-- The page faults of an operand whose address is good come before alignment checking and storage (60_exceptions.md R181). -/
theorem operandStop_of_pageStop (htop : ea.toNat + size ≤ 2 ^ bits) (hok : s.addressOk n ea size = true)
    (hal : k = .legacy → (s.linear n ea 0).toNat % 16 = 0) {o : Stop} (h : s.pageStop n ea size = some o) :
    s.operandStop k bits n ea size = some o := by
  simp [State.operandStop, pastTop_false htop, State.addressStop, misaligned16_false hal, hok, h]

end

/-! ## Steps that raise -/

/-- A step to a state with an exception has raised it, since no step starts from such a state. -/
theorem raises_of_step {s t : State} {e : Exception} (h : step s = .next t) (he : t.exception = some e) : s.Raises t := by
  obtain ⟨hs, hr | ⟨i, rest, -, -, b, rs, d, rfl⟩⟩ := step_next h
  · exact hr
  · exact absurd (hs.symm.trans he) (by simp)

theorem step_of_reject {s : State} {r : Reject} (hx : s.exception = none) (h : decode s.mode s.fetchBytes = .error r) :
    step s = s.rejected r := by
  have hfetch : s.fetchInstr = .error r := by simp only [State.fetchInstr, h]
  simp only [step, hx, hfetch]

end Sys2Proof.Machine
end

section
/-!
SUPPORT. Bytes that end before an instruction does: an operand cut short is not read, and 15 bytes of a longer instruction are too
long (60_exceptions.md rules R180, R181).
-/
namespace Sys2Proof

/-! ## Operands cut short: without the bytes `t`, of which it needs some, none is read -/

theorem takeD32_cut {bs t rest : List Byte} {d : BitVec 32} (h : takeD32 (bs ++ t) = .ok (d, rest))
    (hlt : rest.length < t.length) : takeD32 bs = .error .truncated := by
  match bs with
  | [] | [_] | [_, _] | [_, _, _] => rfl
  | _ :: _ :: _ :: _ :: bs =>
    cases h
    simp at hlt

theorem takeDisp_cut {mod : BitVec 2} {bs t rest : List Byte} {d : Disp} (h : takeDisp mod (bs ++ t) = .ok (d, rest))
    (hlt : rest.length < t.length) : takeDisp mod bs = .error .truncated := by
  unfold takeDisp at h ⊢
  split at h
  · cases h
    simp at hlt
  · next h0 =>
    rw [if_neg h0]
    split at h
    · next h1 =>
      rw [if_pos h1]
      cases bs with
      | nil => rfl
      | cons b bs =>
        cases h
        simp at hlt
    · next h1 =>
      rw [if_neg h1]
      split at h
      · next hd =>
        cases h
        rw [takeD32_cut hd hlt]
      · cases h

theorem takeSib_cut {mod : BitVec 2} {x b : Bool} {bs t rest : List Byte} {m : MemOperand}
    (h : takeSib mod x b (bs ++ t) = .ok (m, rest)) (hlt : rest.length < t.length) :
    takeSib mod x b bs = .error .truncated := by
  cases bs with
  | nil => rfl
  | cons s bs =>
    simp only [List.cons_append, takeSib] at h ⊢
    split at h
    · next hbase =>
      rw [if_pos hbase]
      split at h
      · next hd =>
        cases h
        rw [takeD32_cut hd hlt]
      · cases h
    · next hbase =>
      rw [if_neg hbase]
      split at h
      · next hd =>
        cases h
        rw [takeDisp_cut hd hlt]
      · cases h

theorem takeMem_cut {mod : BitVec 2} {rm : BitVec 3} {x b : Bool} {bs t rest : List Byte} {m : MemOperand}
    (h : takeMem mod rm x b (bs ++ t) = .ok (m, rest)) (hlt : rest.length < t.length) :
    takeMem mod rm x b bs = .error .truncated := by
  unfold takeMem at h ⊢
  split at h
  · next hsib => rw [if_pos hsib, takeSib_cut h hlt]
  · next hsib =>
    rw [if_neg hsib]
    split at h
    · next hbase =>
      rw [if_pos hbase]
      split at h
      · next hd =>
        cases h
        rw [takeD32_cut hd hlt]
      · cases h
    · next hbase =>
      rw [if_neg hbase]
      split at h
      · next hd =>
        cases h
        rw [takeDisp_cut hd hlt]
      · cases h

theorem parseRM_cut {wide x b : Bool} {bs t rest : List Byte} {g : BitVec 3} {o : Option RawRM}
    (h : parseRM wide x b (bs ++ t) = .ok (g, o, rest)) (hlt : rest.length < t.length) :
    parseRM wide x b bs = .error .truncated := by
  cases bs with
  | nil => rfl
  | cons modrm bs =>
    simp only [List.cons_append, parseRM] at h ⊢
    split at h
    · cases h
      simp at hlt
    · next hreg =>
      rw [if_neg hreg]
      split at h
      · next hwide =>
        rw [if_pos hwide]
        split at h
        · next hm =>
          cases h
          rw [takeMem_cut hm hlt]
        · cases h
      · cases h
        simp at hlt

/-! ## Form 1 cut short -/

theorem parseLegacy_cut {m : Mode} {sc : Scan} {bs t rest : List Byte} {i : Instr}
    (h : parseLegacy m sc (bs ++ t) = .ok (i, rest)) (hlt : rest.length < t.length) :
    parseLegacy m sc bs = .error .truncated := by
  unfold parseLegacy at h ⊢
  split at h
  · cases h
  · next hrm =>
    split at h
    · cases h
    · obtain ⟨-, -, -, rfl, -⟩ := finishForm_ok h
      rw [parseRM_cut hrm hlt]

/-- Not all bytes of the body of form 1 are no instruction yet. -/
theorem parseHead_form1_cut {m : Mode} {i : Instr} (hf : i.fieldsOk m = true)
    (hi : ∃ p d o, i = .unpckhpd p d o ∨ i = .unpckhpdRex p d o) {n : Nat} (hn : n < i.body.length) :
    parseHead m (i.lead.foldl Scan.eat Scan.start) (i.body.take n) = .error .truncated := by
  have hok := parseHead_body hf (precedes_lead hf) []
  obtain ⟨operand, hopcode⟩ : ∃ operand, i.body = 0x0F :: 0x15 :: operand := by
    obtain ⟨p, d, o, rfl | rfl⟩ := hi <;> exact ⟨_, rfl⟩
  rw [List.append_nil] at hok
  rw [hopcode] at hok hn ⊢
  match n with
  | 0 | 1 => rfl
  | n + 2 =>
    have hlegacy : parseLegacy m (i.lead.foldl Scan.eat Scan.start) (operand.take n ++ operand.drop n) = .ok (i, []) := by
      rwa [List.take_append_drop]
    exact parseLegacy_cut hlegacy (by simpa using hn)

/-! ## The window ends before the instruction (60_exceptions.md R180) -/

/-- The scan stops at the byte after the lead, or where the bytes end. -/
theorem scanPrefixes_take_body (long : Bool) (sc : Scan) (i : Instr) (n : Nat) :
    scanPrefixes long sc (i.body.take n) = (sc, i.body.take n) := by
  cases n with
  | zero => rfl
  | succ n => cases i <;> exact scanPrefixes_stop (by cases long <;> rfl) sc _

/-- A window that ends among the prefixes of form 1 or in its body. -/
theorem parseWindow_take_encode {m : Mode} {i : Instr} (hf : i.fieldsOk m = true)
    (hi : ∃ p d o, i = .unpckhpd p d o ∨ i = .unpckhpdRex p d o) {n : Nat} (hn : n < i.length) :
    parseWindow m ((encode i).take n) = .error .truncated := by
  have hlead : ∀ b ∈ i.lead.take n, isPrefix (decide (m = .long64)) b = true :=
    fun b hb => isPrefix_of_mem_lead hf (List.mem_of_mem_take hb)
  have hlen := lead_body_length i
  rw [List.length_append] at hlen
  simp only [encode_eq_lead_body, List.take_append, parseWindow, scanPrefixes_append hlead, scanPrefixes_take_body]
  by_cases hcut : n ≤ i.lead.length
  · rw [Nat.sub_eq_zero_of_le hcut]
    rfl
  · rw [List.take_of_length_le (Nat.le_of_not_le hcut)]
    exact parseHead_form1_cut hf hi (by omega)

theorem decode_tooLong {m : Mode} (hm : m ≠ .prot16) {bs : List Byte} (hlen : Config.maxInstrBytes ≤ bs.length)
    (h : parseWindow m (bs.take Config.maxInstrBytes) = .error .truncated) : decode m bs = .error .tooLong := by
  simp only [decode, if_neg hm, h, if_neg (Nat.not_lt.2 hlen)]

/-! ## Only form 1 has so many bytes -/

theorem MemOperand.length_le_6 (m : MemOperand) : m.length ≤ 6 := by
  cases m with
  | base _ d | sib _ _ d => cases d <;> simp [MemOperand.length, Disp.length]
  | sibNoBase | disp32 => simp [MemOperand.length]

theorem RegMem.length_le_6 (o : RegMem) : o.length ≤ 6 := by
  cases o with
  | reg r => exact Nat.le_add_left 1 5
  | mem m => exact m.length_le_6

theorem RegMemBcst.length_le_6 (o : RegMemBcst) : o.length ≤ 6 := by
  cases o with
  | reg r => exact Nat.le_add_left 1 5
  | mem m | bcst m => exact m.length_le_6

theorem prefixes_length_le_of_vexOk {m : Mode} {p : Prefixes} (h : p.vexOk m = true) : p.length ≤ 2 := by
  have hred : p.redundant = 0 := by simpa using (Bool.and_eq_true_iff.1 h).2
  rw [Prefixes.length, hred]
  split <;> split <;> decide

/-- Forms 2 to 6 carry no redundant bytes, so that they have at most 13 (30_encoding.md R80). -/
theorem form1_of_overlong {m : Mode} {i : Instr} (hf : i.fieldsOk m = true) (hlong : 15 < i.length) :
    ∃ p d o, i = .unpckhpd p d o ∨ i = .unpckhpdRex p d o := by
  cases i with
  | unpckhpd p d o => exact ⟨p, d, o, .inl rfl⟩
  | unpckhpdRex p d o => exact ⟨p, d, o, .inr rfl⟩
  | vunpckhpd128C5 p d s1 o | vunpckhpd128C4 p d s1 o | vunpckhpd256C5 p d s1 o | vunpckhpd256C4 p d s1 o =>
    obtain ⟨-, hp, -⟩ := vexWellFormed_iff.1 hf
    have hpfx := prefixes_length_le_of_vexOk hp
    have hop := o.length_le_6
    simp only [Instr.length] at hlong
    omega
  | vunpckhpdEvex128 p d k s1 o | vunpckhpdEvex256 p d k s1 o | vunpckhpdEvex512 p d k s1 o =>
    obtain ⟨-, hp, -⟩ := evexWellFormed_iff.1 hf
    have hpfx := prefixes_length_le_of_vexOk hp
    have hop := o.length_le_6
    simp only [Instr.length] at hlong
    omega

/-- The first 15 bytes of a longer instruction are too long. -/
theorem decode_overlong {m : Mode} {i : Instr} (hf : i.fieldsOk m = true) (hlong : 15 < i.length) :
    decode m ((encode i).take 15) = .error .tooLong := by
  refine decode_tooLong (ne_prot16_of_fieldsOk hf) ?_ ?_
  · rw [List.length_take, encode_length]
    exact Nat.le_min.2 ⟨Nat.le_refl 15, Nat.le_of_lt hlong⟩
  · rw [List.take_take]
    exact parseWindow_take_encode hf (form1_of_overlong hf hlong) hlong

/-- An EVEX prefix whose opcode 15H is the fifteenth byte is too long, since its ModRM would be the sixteenth (log 23). -/
theorem decode_evex_tooLong {pre : List Byte} (hpre : ∀ b ∈ pre, isPrefix true b = true) (hlen : pre.length = 10)
    {p0 p1 : Byte} (hother : evexOther p0 p1 0x15 = false) (p2 : Byte) :
    decode .long64 (pre ++ [0x62, p0, p1, p2, 0x15]) = .error .tooLong := by
  have hbytes : (pre ++ [0x62, p0, p1, p2, 0x15]).length = Config.maxInstrBytes := by
    rw [List.length_append, hlen]
    rfl
  refine decode_tooLong (by decide) hbytes.ge ?_
  rw [List.take_of_length_le hbytes.le]
  calc parseWindow .long64 (pre ++ [0x62, p0, p1, p2, 0x15])
      = parseHead .long64 (pre.foldl Scan.eat Scan.start) [0x62, p0, p1, p2, 0x15] := by
        simp only [parseWindow, decide_true, scanPrefixes_append hpre, scanPrefixes_stop (isPrefix_62 true)]
    _ = parseEvexOperands .long64 (pre.foldl Scan.eat Scan.start) p0 p1 p2 [] := parseHead_evex hother ..
    _ = .error .truncated := rfl

end Sys2Proof
end

section
/-!
PROOFS. The obligations of 60_exceptions.md: the exceptions of the encoding, of the state and of the memory operand, and what every
raised exception is.
-/
namespace Sys2Proof.Machine

/-! ## Exceptions of the encoding -/

/-- Settles O14: the step looks at the exception before it fetches. -/
theorem raisedExceptionIsSticky : Obligations.RaisedExceptionIsSticky := by
  intro s e h
  simp only [step, h]

/-- Settles O15: #UD is what the machine does with a rejected encoding of that name. -/
theorem illegalEncodingRaisesUndefined : Obligations.IllegalEncodingRaisesUndefined :=
  fun _ hx h => step_of_reject hx h

/-- Settles O16: only form 1 is so long, and 15 of its bytes end among its prefixes or in its body. -/
theorem overlongInstructionRaisesGp : Obligations.OverlongInstructionRaisesGp := by
  intro s i hx hf hlong hbytes
  exact step_of_reject hx (hbytes ▸ decode_overlong hf hlong)

/-- Settles O59: ModRM would be the sixteenth byte, and #UD needs it. -/
theorem lengthFaultComesFirst : Obligations.LengthFaultComesFirst := by
  intro s p0 p1 p2 hx hm hsetting hbytes
  have hother : evexOther p0 p1 0x15 = false := evexOther_eq_false (by rw [evexReserved_iff]; tauto)
  have hpre : ∀ b ∈ List.replicate 10 (0x66 : Byte), isPrefix true b = true := by decide
  exact step_of_reject hx (by rw [hm, hbytes]; exact decode_evex_tooLong hpre rfl hother p2)

/-! ## Exceptions of the state -/

/-- Settles O26: each condition is one of form 1's gate. -/
theorem form1Undefined : Obligations.Form1Undefined := by
  intro s p d o hm h
  have hud : s.udLegacy = true := by simpa [State.udLegacy, or_assoc] using h
  exact ⟨exec_of_ud hm hud, exec_of_ud hm hud⟩

/-- Settles O27: each condition is one of the gate of forms 2 and 3, whatever their length. -/
theorem vexUndefined : Obligations.VexUndefined := by
  intro s p d s1 o hm h i hi
  obtain rfl | rfl | rfl | rfl := hi <;> exact exec_of_ud hm (udVex_of_condition _ h)

/-- Settles O28: each condition is one of the gate of forms 4 to 6, and no AVX512VL is one of forms 4 and 5. -/
theorem evexUndefined : Obligations.EvexUndefined := by
  intro s p d s1 k o hm
  refine ⟨fun h => exec_of_ud hm (udEvex_of_condition (vl := .v512) ?_), fun h =>
    ⟨exec_of_ud hm (udEvex_of_condition (vl := .v128) ?_), exec_of_ud hm (udEvex_of_condition (vl := .v256) ?_)⟩⟩
  · simpa [State.vlMissing] using h
  · simpa [State.vlMissing] using h
  · simpa [State.vlMissing] using h

/-- Settles O29: an allowed instruction has no #UD condition, so that CR0.TS decides its gate. -/
theorem taskSwitchedRaisesNm : Obligations.TaskSwitchedRaisesNm :=
  fun _ _ hal hts => exec_of_ts (ne_prot16_of_allowed hal) (udOf_of_allowed hal) hts

/-! ## Exceptions of the memory operand -/

/-- Settles O31: both checks of the address fail, and the free value of D13 decides which of them is reported. -/
theorem form1StackMisalignedRaisesEither : Obligations.Form1StackMisalignedRaisesEither := by
  rintro s i a l ha hkind hal hts hm rfl htop hmis hss hbad
  have hsize : a.size = 16 := size_of_legacy ha hkind
  have hstop : s.addressStop .legacy (s.operandOf i a).seg (s.operandOf i a).ea 16 =
      some (.next (s.draw.raise (.zero (if Config.alignmentFirst s.draws then .gp else .ss)))) := by
    rw [State.addressStop, misaligned16_legacy, decide_eq_true hmis, hbad]
    exact if_pos hss
  refine ⟨if Config.alignmentFirst s.draws then .gp else .ss, s.draws + 1, by split <;> simp, ?_⟩
  exact exec_of_operandStop ha hal hts hm (operandStop_of_addressStop (by rwa [hsize]) (by rwa [hkind, hsize]))

/-- Settles O33: the address checks pass, and a #PF reports one of the faulting bytes. -/
theorem pageFaultReportsAFaultingByte : Obligations.PageFaultReportsAFaultingByte := by
  rintro s i a l j c ha hal hts rfl haddr halign hj htrans
  obtain ⟨o, ho⟩ := pageStop_isSome hj htrans
  have hexec : exec i s = o :=
    exec_of_operandStop ha hal hts haddr.mode (operandStop_of_pageStop haddr.top haddr.address halign ho)
  obtain ⟨j', hj', c', htrans', rfl⟩ := pageStop_cases s _ _ _ o ho
  exact ⟨j', c', s.draws + 1, hj', htrans', hexec⟩

/-- Settles O34: no check before alignment checking stops the operand, and alignment checking does. -/
theorem broadcastMisalignedRaisesAc : Obligations.BroadcastMisalignedRaisesAc := by
  rintro s i a l ha hkind hal hts rfl haddr hmap ham hac hcpl hmis
  have hsize : a.size = 8 := size_of_broadcast ha hkind
  refine exec_of_operandStop ha hal hts haddr.mode ?_
  rw [hkind, hsize, operandStop_of_mapped haddr.top haddr.address (by simp) hmap]
  simp [State.alignmentStop, State.alignmentChecking, ham, hac, hcpl, hmis, State.raise, Exception.zero]

/-! ## Every raised exception -/

/-- Settles O45: only a #PF writes CR2, and nothing else is written. -/
theorem faultsArePrecise : Obligations.FaultsArePrecise := by
  intro s t e h he
  cases raises_of_step h he with
  | plain k hk | zero k d hk =>
    cases he
    exact ⟨rfl, fun _ => rfl⟩
  | page a c d =>
    cases he
    exact ⟨rfl, fun hne => absurd rfl hne⟩

/-- Settles O46, by the kinds of exception and the error code of each. -/
theorem onlyTheListedExceptions : Obligations.OnlyTheListedExceptions := by
  intro s t e h he
  cases raises_of_step h he with
  | plain k hk =>
    cases he
    exact .inl ⟨rfl, hk.imp (congrArg ExcKind.vector) (congrArg ExcKind.vector)⟩
  | zero k d hk =>
    cases he
    exact .inr (.inl ⟨rfl, hk.imp (congrArg ExcKind.vector) (Or.imp (congrArg ExcKind.vector) (congrArg ExcKind.vector))⟩)
  | page a c d =>
    cases he
    exact .inr (.inr ⟨c, rfl, rfl⟩)

/-! ## Register second sources -/

/-- Settles O56: neither the gate nor a register second source depends on CPL, and the write commutes with it. -/
theorem privilegeLevelIsIrrelevant : Obligations.PrivilegeLevelIsIrrelevant := by
  intro i s c hreg
  obtain ⟨r, hsrc⟩ := src2Of_of_register hreg
  have hgate : ({ s with cpl := c } : State).gateOf (gateClassOf i) = s.gateOf (gateClassOf i) := by
    cases gateClassOf i <;> rfl
  rw [exec_eq, exec_eq, hgate, hsrc, hsrc]
  exact run_map (fun t => { t with cpl := c }) s _ (.ok (s.vec r, s)) _ _ rfl (fun _ => rfl) fun b t _ => by cases i <;> rfl

/-- Settles O57: the gate raises #UD or #NM or is open, and a register second source is always read. -/
theorem registerFormsOnlyUdOrNm : Obligations.RegisterFormsOnlyUdOrNm := by
  intro i s hreg hm
  obtain ⟨r, hsrc⟩ := src2Of_of_register hreg
  rw [exec_eq, hsrc]
  cases hg : s.gateOf (gateClassOf i) with
  | none => exact ⟨_, run_ok _ _ _ _ hm, .inl (wroteOnly_finishOf s i _)⟩
  | some k =>
    refine ⟨_, run_gate _ _ _ _ hm, .inr ?_⟩
    obtain rfl | rfl := gateOf_some hg
    · exact .inl rfl
    · exact .inr rfl

end Sys2Proof.Machine
end

section
/-!
PROOFS. The obligation of 70_reset_and_hazards.md: what every form does right after reset.
-/
namespace Sys2Proof.Machine

/-! ## The control bits after reset -/

/-- The processor starts in real-address mode (10_state.md R36). -/
@[simp] theorem reset_mode : State.reset.mode = .real := rfl

/-- CR4 is 0 after reset, and with it CR4.OSFXSR (10_state.md R30, R36). -/
@[simp] theorem reset_osfxsr : State.reset.osfxsr = false := rfl

/-- CR4 is 0 after reset, and with it CR4.OSXSAVE (10_state.md R30, R36). -/
@[simp] theorem reset_osxsave : State.reset.osxsave = false := rfl

/-! ## Every form after reset -/

/-- CR4.OSFXSR = 0 makes form 1 undefined after reset, CR4.OSXSAVE = 0 every other form (70_reset_and_hazards.md R211). -/
theorem udOf_reset (g : GateClass) : State.reset.udOf g = true := by
  cases g with
  | legacy => simp [State.udOf, State.udLegacy]
  | vex vl => exact udVex_of_condition vl (.inl reset_osxsave)
  | evex vl => exact udEvex_of_condition (.inl reset_osxsave)

/-- Settles O53: each form has a #UD condition after reset, so that its gate raises before any operand is read. -/
theorem everyFormUndefinedAtReset : Obligations.EveryFormUndefinedAtReset :=
  fun i => exec_of_ud (by simp) (udOf_reset (gateClassOf i))

end Sys2Proof.Machine
end

section
/-!
PROOFS. The decoding vectors of 95_test_vectors.md section 3.4, and the refusals of unspecified storage (92_eei_decisions.md D15,
D16, D24).
-/
namespace Sys2Proof

/-! ## Decoding vectors -/

/-- A byte string that is the encoding of a well-formed instruction decodes as it, with no byte left. -/
theorem decode_eq_of_encode_eq {m : Mode} {i : Instr} {bs : List Byte} (hwf : i.wellFormed m = true) (hbs : encode i = bs) :
    decode m bs = .ok (i, []) := by
  rw [← hbs, ← List.append_nil (encode i)]
  exact decode_encode hwf []

/-- Settles O4: six strings are encodings; the fifth has VEX.W set, which the encoder leaves clear and the decoder ignores. -/
theorem specVectorsDecode : Obligations.SpecVectorsDecode := by
  exact ⟨decode_eq_of_encode_eq (by decide) (by decide),
    decode_eq_of_encode_eq (by decide) (by decide),
    decode_eq_of_encode_eq (by decide) (by decide),
    decode_eq_of_encode_eq (by decide) (by decide),
    (vexWIgnored _ _ _ _).trans (decode_eq_of_encode_eq (by decide) (by decide)),
    decode_eq_of_encode_eq (by decide) (by decide),
    decode_eq_of_encode_eq (by decide) (by decide)⟩

end Sys2Proof

namespace Sys2Proof.Machine

/-! ## Refusals of storage -/

section
variable {s : State} {k : OperandKind} {bits size : Nat} {n : SegName} {ea : Word64}

/-- An operand past the top is refused before any other check (92_eei_decisions.md D24). -/
theorem operandStop_pastTop (h : 2 ^ bits < ea.toNat + size) :
    s.operandStop k bits n ea size = some (.refused .operandPastTop) := by
  simp [State.operandStop, pastTop, h]

/-- An operand with a byte in a device region is refused (92_eei_decisions.md D15). -/
theorem storageStop_device {j pa : Nat} (hj : j < size) (ht : s.translate (s.linear n ea j) = .ok pa)
    (hdev : s.isDevice pa = true) : s.storageStop k n ea size = some (.refused .deviceMemory) := by
  rw [State.storageStop, if_pos]
  simp only [List.any_eq_true, List.mem_range]
  exact ⟨j, hj, by rw [physical_of_translate ht, hdev]⟩

/-- Whatever the free choice of form 1 (20_memory.md R55), a byte of the upper eight is read. -/
theorem firstRead_le {j : Nat} (h : k = .legacy → 8 ≤ j) : s.firstRead k ≤ j := by
  cases k with
  | legacy =>
    have hle : s.firstRead .legacy ≤ 8 := by obtain hf | hf := firstRead_legacy s <;> simp [hf]
    exact hle.trans (h rfl)
  | full | broadcast => exact Nat.zero_le j

end

/-- Alignment checking stops no operand that has the alignment its kind needs (20_memory.md R54, R63). -/
theorem alignmentStop_of_aligned {s : State} {k : OperandKind} {l : Located} {size : Nat} (h : s.Aligned k l size) :
    s.alignmentStop k (s.linear l.seg l.ea 0) size = none := by
  cases k with
  | legacy => simp [State.alignmentStop]
  | full | broadcast =>
    rw [State.alignmentStop, if_neg]
    simpa [State.Aligned] using h

/-- Where addresses, pages and alignment are good, a stop of storage is the answer of the execution (60_exceptions.md R181). -/
theorem exec_of_storageStop {s : State} {i : Instr} {a : MemAccess} {o : Stop} (ha : i.memAccess = some a) (hal : s.Allowed i)
    (hts : s.ts = false) (haddr : s.Addressable (s.operandOf i a) a.size) (halign : s.Aligned a.kind (s.operandOf i a) a.size)
    (hmap : ∀ j < a.size, ∃ pa, s.translate (s.linear (s.operandOf i a).seg (s.operandOf i a).ea j) = .ok pa)
    (ho : s.storageStop a.kind (s.operandOf i a).seg (s.operandOf i a).ea a.size = some o) : exec i s = o := by
  have hlegacy : a.kind = .legacy → (s.linear (s.operandOf i a).seg (s.operandOf i a).ea 0).toNat % 16 = 0 := by
    intro hk
    rwa [hk] at halign
  refine exec_of_operandStop ha hal hts haddr.mode ?_
  rw [operandStop_of_mapped haddr.top haddr.address hlegacy hmap, alignmentStop_of_aligned halign, ho]
  rfl

/-- Settles O36: the top is checked first of all, devices and then absent bytes when every other check has passed. -/
theorem unspecifiedStorageIsRefused : Obligations.UnspecifiedStorageIsRefused := by
  rintro s i a l ha hal hts hm rfl
  refine ⟨fun htop => exec_of_operandStop ha hal hts hm (operandStop_pastTop htop), fun haddr halign hmap => ⟨?_, ?_⟩⟩
  · rintro ⟨j, hj, pa, htrans, hdev⟩
    exact exec_of_storageStop ha hal hts haddr halign hmap (storageStop_device hj htrans hdev)
  · rintro hordinary ⟨j, hj, hread, pa, htrans, habsent⟩
    have hmapped : ∀ q < a.size, ∃ pa, s.translate (s.linear (s.operandOf i a).seg (s.operandOf i a).ea q) = .ok pa ∧
        s.isDevice pa = false :=
      fun q hq => (hmap q hq).imp fun pa ht => ⟨ht, hordinary q hq pa ht⟩
    exact exec_of_storageStop ha hal hts haddr halign hmap
      (storageStop_absent hmapped hj (firstRead_le hread) (by rw [physical_of_translate htrans, habsent]))

end Sys2Proof.Machine
end
